-- ==== Sys2Proof/Word.lean ====
section
/-! DEFINITION. The word types of RQCORE (spec/00_scope.md R10): bytes, 32-bit words, and symbols as byte strings. -/

namespace Sys2Proof

/-- A byte: one GF(256) element, or one byte of a bank (R10, R100). -/
abbrev Byte := BitVec 8

/-- A 32-bit register or bank word (R10). -/
abbrev Word := BitVec 32

/-- A symbol: a byte string of the configured size T (20_memory.md R64). -/
abbrev Symbol := List Byte

/-- A row of a matrix bank, restricted to the columns in use (R12). -/
abbrev Row := List Byte

/-- `zext_32` of a byte (R11). -/
abbrev zext32 (b : Byte) : Word := b.setWidth 32

/-- A natural as the 32-bit value of a register (R8, R12). -/
abbrev word (n : Nat) : Word := BitVec.ofNat 32 n

end Sys2Proof
end

