-- ==== Sys2Proof/Syntax.lean ====
section
/-! DEFINITION. The commands of RQCORE: one constructor per row of spec/opcode_table.json (30_encoding.md R86), with the
inline fields of its format (R81 to R85). Operands held in ARG0 to ARG7 are not part of the command word. -/

namespace Sys2Proof

/-- A 4-bit bank code as it stands in the command word; the codes in use are 0 to 4 (10_state.md R44, 30_encoding.md R84). -/
abbrev BankCode := BitVec 4

/-- A command with its inline operands (30_encoding.md R86). -/
inductive Instr where
  /-- NOP, format N (60_exceptions.md R310). -/
  | nop
  /-- GF_ADD u, v, format S2 (40_gf256.md R110). -/
  | gfAdd (u v : Byte)
  /-- GF_SUB u, v, format S2 (R111). -/
  | gfSub (u v : Byte)
  /-- GF_MUL u, v, format S2 (R112). -/
  | gfMul (u v : Byte)
  /-- GF_DIV u, v, format S2 (R113). -/
  | gfDiv (u v : Byte)
  /-- GF_EXP i, format S9 (R114). -/
  | gfExp (idx : BitVec 9)
  /-- GF_LOG x, format S1 (R115). -/
  | gfLog (x : Byte)
  /-- VXOR, format V (R121). -/
  | vxor (db sb : BankCode)
  /-- VSCALE, format V (R122). -/
  | vscale (db : BankCode) (beta : Byte)
  /-- VAXPY, format V (R123). -/
  | vaxpy (db sb : BankCode) (beta : Byte)
  /-- VCOPY, format V (R124). -/
  | vcopy (db sb : BankCode)
  /-- VZERO, format V (R125). -/
  | vzero (db : BankCode)
  /-- SIT_CEIL, format N (41_tables.md R145). -/
  | sitCeil
  /-- SIT_LOOKUP, format N (R146). -/
  | sitLookup
  /-- PARTITION, format N (R147). -/
  | partition
  /-- RAND, format N (R149). -/
  | rand
  /-- DEG, format N (R151). -/
  | deg
  /-- BLK_CONFIG, format N (R152). -/
  | blkConfig
  /-- TUPLE, format N (42_tuple_matrix.md R171). -/
  | tuple
  /-- BUILD_A, format N (R190). -/
  | buildA
  /-- ROW_PATTERN, format N (R191). -/
  | rowPattern
  /-- LT_ENC, format N (43_lt_encoder.md R211). -/
  | ltEnc
  /-- PI_SOLVE, format N (44_pi_solver.md R240). -/
  | piSolve
  /-- BLK_ENCODE, format N (45_block_codec.md R274). -/
  | blkEncode
  /-- BLK_SYMBOL, format N (R276). -/
  | blkSymbol
  /-- BLK_DECODE, format N (R280). -/
  | blkDecode
deriving DecidableEq, Repr

end Sys2Proof
end

