-- ==== Sys2Proof/WellFormed.lean ====
section
/-! DEFINITION. Which commands have an encoding: a bank field that the command uses holds a code 0 to 4
(10_state.md R44, 30_encoding.md R88). Every other field is legal at every value. -/

namespace Sys2Proof

/-- A bank code that names a symbol bank: 0 = SYM_D, 1 = SYM_C, 2 = SYM_SRC, 3 = SYM_RX, 4 = SYM_OUT (R44). -/
def bankCodeOk (c : BankCode) : Bool := c < 5#4

/-- Every bank field the command uses names a bank (R88). -/
def Instr.wellFormed : Instr → Bool
  | .nop => true
  | .gfAdd _ _ => true
  | .gfSub _ _ => true
  | .gfMul _ _ => true
  | .gfDiv _ _ => true
  | .gfExp _ => true
  | .gfLog _ => true
  | .vxor db sb => bankCodeOk db && bankCodeOk sb
  | .vscale db _ => bankCodeOk db
  | .vaxpy db sb _ => bankCodeOk db && bankCodeOk sb
  | .vcopy db sb => bankCodeOk db && bankCodeOk sb
  | .vzero db => bankCodeOk db
  | .sitCeil => true
  | .sitLookup => true
  | .partition => true
  | .rand => true
  | .deg => true
  | .blkConfig => true
  | .tuple => true
  | .buildA => true
  | .rowPattern => true
  | .ltEnc => true
  | .piSolve => true
  | .blkEncode => true
  | .blkSymbol => true
  | .blkDecode => true

end Sys2Proof
end

