-- ==== Sys2Proof/Decode.lean ====
section
/-! DEFINITION. The decoder of a latched command word (30_encoding.md R80 to R88), total on every word and rejecting by
name, the encoder, and the opcode map of R86 as rows of mask and match. -/

namespace Sys2Proof

/-- Why a command word is illegal (30_encoding.md R88); each raises Fail(ILLEGAL_COMMAND). -/
inductive DecodeError where
  /-- CMD[7:0] is absent from the opcode map. -/
  | reservedOpcode
  /-- A bit that the command's format requires to be zero is set. -/
  | nonzeroMustBeZero
  /-- A bank field that the command uses holds a code 5 to 15. -/
  | reservedBank
deriving DecidableEq, Repr

/-- OPC = CMD[7:0] (R80). -/
def fieldOpc (w : Word) : Byte := w.extractLsb' 0 8
/-- FA = CMD[15:8] (R82, R83). -/
def fieldFa (w : Word) : Byte := w.extractLsb' 8 8
/-- FB = CMD[23:16] (R82). -/
def fieldFb (w : Word) : Byte := w.extractLsb' 16 8
/-- CMD[31:24]. -/
def fieldTop (w : Word) : Byte := w.extractLsb' 24 8
/-- IDX = CMD[16:8] (R83). -/
def fieldIdx (w : Word) : BitVec 9 := w.extractLsb' 8 9
/-- DB = CMD[11:8] (R84). -/
def fieldDb (w : Word) : BankCode := w.extractLsb' 8 4
/-- SB = CMD[15:12] (R84). -/
def fieldSb (w : Word) : BankCode := w.extractLsb' 12 4
/-- BETA = CMD[23:16] (R84). -/
def fieldBeta (w : Word) : Byte := w.extractLsb' 16 8

/-- Accept the command when the bits its format requires to be zero are zero (R80, R86). -/
def requireZero {n : Nat} (bits : BitVec n) (k : Except DecodeError Instr) : Except DecodeError Instr :=
  if bits = 0#n then k else .error .nonzeroMustBeZero

/-- Accept a format V command when its used bank fields name banks: R87 makes this check after the mask and match. -/
def requireBanks (i : Instr) : Except DecodeError Instr :=
  if i.wellFormed then .ok i else .error .reservedBank

/-- Format N: CMD[31:8] = 0 (R81). -/
def formatN (w : Word) (i : Instr) : Except DecodeError Instr :=
  requireZero (w.extractLsb' 8 24) (.ok i)

/-- Format S2: CMD[31:24] = 0 (R82). -/
def formatS2 (w : Word) (mk : Byte → Byte → Instr) : Except DecodeError Instr :=
  requireZero (fieldTop w) (.ok (mk (fieldFa w) (fieldFb w)))

/-- The decoding procedure of R87. -/
def decode (w : Word) : Except DecodeError Instr :=
  match fieldOpc w with
  | 0x00#8 => formatN w .nop
  | 0x01#8 => formatS2 w .gfAdd
  | 0x02#8 => formatS2 w .gfSub
  | 0x03#8 => formatS2 w .gfMul
  | 0x04#8 => formatS2 w .gfDiv
  | 0x05#8 => requireZero (w.extractLsb' 17 15) (.ok (.gfExp (fieldIdx w)))
  | 0x06#8 => requireZero (w.extractLsb' 16 16) (.ok (.gfLog (fieldFa w)))
  | 0x10#8 => requireZero (w.extractLsb' 16 16) (requireBanks (.vxor (fieldDb w) (fieldSb w)))
  | 0x11#8 => requireZero (fieldTop w) (requireZero (fieldSb w) (requireBanks (.vscale (fieldDb w) (fieldBeta w))))
  | 0x12#8 => requireZero (fieldTop w) (requireBanks (.vaxpy (fieldDb w) (fieldSb w) (fieldBeta w)))
  | 0x13#8 => requireZero (w.extractLsb' 16 16) (requireBanks (.vcopy (fieldDb w) (fieldSb w)))
  | 0x14#8 => requireZero (w.extractLsb' 12 20) (requireBanks (.vzero (fieldDb w)))
  | 0x20#8 => formatN w .sitCeil
  | 0x21#8 => formatN w .sitLookup
  | 0x22#8 => formatN w .partition
  | 0x23#8 => formatN w .rand
  | 0x24#8 => formatN w .deg
  | 0x30#8 => formatN w .blkConfig
  | 0x31#8 => formatN w .tuple
  | 0x32#8 => formatN w .buildA
  | 0x33#8 => formatN w .rowPattern
  | 0x34#8 => formatN w .ltEnc
  | 0x38#8 => formatN w .piSolve
  | 0x40#8 => formatN w .blkEncode
  | 0x41#8 => formatN w .blkSymbol
  | 0x42#8 => formatN w .blkDecode
  | _ => .error .reservedOpcode

/-- The word of a format N command (R81). -/
def wordN (opc : Byte) : Word := 0#24 ++ opc

/-- The word of a format S2 command (R82). -/
def wordS2 (opc u v : Byte) : Word := 0#8 ++ v ++ u ++ opc

/-- The word of a format V command (R84). -/
def wordV (opc : Byte) (db sb : BankCode) (beta : Byte) : Word := 0#8 ++ beta ++ sb ++ db ++ opc

/-- The command word of a command (R81 to R86). -/
def encode : Instr → Word
  | .nop => wordN 0x00#8
  | .gfAdd u v => wordS2 0x01#8 u v
  | .gfSub u v => wordS2 0x02#8 u v
  | .gfMul u v => wordS2 0x03#8 u v
  | .gfDiv u v => wordS2 0x04#8 u v
  | .gfExp idx => 0#15 ++ idx ++ 0x05#8
  | .gfLog x => 0#16 ++ x ++ 0x06#8
  | .vxor db sb => wordV 0x10#8 db sb 0#8
  | .vscale db beta => wordV 0x11#8 db 0#4 beta
  | .vaxpy db sb beta => wordV 0x12#8 db sb beta
  | .vcopy db sb => wordV 0x13#8 db sb 0#8
  | .vzero db => wordV 0x14#8 db 0#4 0#8
  | .sitCeil => wordN 0x20#8
  | .sitLookup => wordN 0x21#8
  | .partition => wordN 0x22#8
  | .rand => wordN 0x23#8
  | .deg => wordN 0x24#8
  | .blkConfig => wordN 0x30#8
  | .tuple => wordN 0x31#8
  | .buildA => wordN 0x32#8
  | .rowPattern => wordN 0x33#8
  | .ltEnc => wordN 0x34#8
  | .piSolve => wordN 0x38#8
  | .blkEncode => wordN 0x40#8
  | .blkSymbol => wordN 0x41#8
  | .blkDecode => wordN 0x42#8

/-- OPC of a command (30_encoding.md R86). -/
def Instr.opcode : Instr → Byte
  | .nop => 0x00#8
  | .gfAdd _ _ => 0x01#8
  | .gfSub _ _ => 0x02#8
  | .gfMul _ _ => 0x03#8
  | .gfDiv _ _ => 0x04#8
  | .gfExp _ => 0x05#8
  | .gfLog _ => 0x06#8
  | .vxor _ _ => 0x10#8
  | .vscale _ _ => 0x11#8
  | .vaxpy _ _ _ => 0x12#8
  | .vcopy _ _ => 0x13#8
  | .vzero _ => 0x14#8
  | .sitCeil => 0x20#8
  | .sitLookup => 0x21#8
  | .partition => 0x22#8
  | .rand => 0x23#8
  | .deg => 0x24#8
  | .blkConfig => 0x30#8
  | .tuple => 0x31#8
  | .buildA => 0x32#8
  | .rowPattern => 0x33#8
  | .ltEnc => 0x34#8
  | .piSolve => 0x38#8
  | .blkEncode => 0x40#8
  | .blkSymbol => 0x41#8
  | .blkDecode => 0x42#8

/-- The mnemonic of a command in the opcode map (R86). -/
def Instr.mnemonic : Instr → String
  | .nop => "NOP"
  | .gfAdd _ _ => "GF_ADD"
  | .gfSub _ _ => "GF_SUB"
  | .gfMul _ _ => "GF_MUL"
  | .gfDiv _ _ => "GF_DIV"
  | .gfExp _ => "GF_EXP"
  | .gfLog _ => "GF_LOG"
  | .vxor _ _ => "VXOR"
  | .vscale _ _ => "VSCALE"
  | .vaxpy _ _ _ => "VAXPY"
  | .vcopy _ _ => "VCOPY"
  | .vzero _ => "VZERO"
  | .sitCeil => "SIT_CEIL"
  | .sitLookup => "SIT_LOOKUP"
  | .partition => "PARTITION"
  | .rand => "RAND"
  | .deg => "DEG"
  | .blkConfig => "BLK_CONFIG"
  | .tuple => "TUPLE"
  | .buildA => "BUILD_A"
  | .rowPattern => "ROW_PATTERN"
  | .ltEnc => "LT_ENC"
  | .piSolve => "PI_SOLVE"
  | .blkEncode => "BLK_ENCODE"
  | .blkSymbol => "BLK_SYMBOL"
  | .blkDecode => "BLK_DECODE"

/-- One row of the opcode map of R86: a word selects it exactly when (CMD & mask) = match. -/
structure OpcodeRow where
  mnemonic : String
  mask : Word
  pattern : Word
deriving DecidableEq, Repr

/-- A word selects a row (R86). -/
def OpcodeRow.selects (r : OpcodeRow) (w : Word) : Bool := w &&& r.mask = r.pattern

/-- The opcode map of R86, its masks and matches as the table has them. -/
def opcodeMap : List OpcodeRow :=
  [⟨"NOP", 0xFFFFFFFF#32, 0x00000000#32⟩, ⟨"GF_ADD", 0xFF0000FF#32, 0x00000001#32⟩,
   ⟨"GF_SUB", 0xFF0000FF#32, 0x00000002#32⟩, ⟨"GF_MUL", 0xFF0000FF#32, 0x00000003#32⟩,
   ⟨"GF_DIV", 0xFF0000FF#32, 0x00000004#32⟩, ⟨"GF_EXP", 0xFFFE00FF#32, 0x00000005#32⟩,
   ⟨"GF_LOG", 0xFFFF00FF#32, 0x00000006#32⟩, ⟨"VXOR", 0xFFFF00FF#32, 0x00000010#32⟩,
   ⟨"VSCALE", 0xFF00F0FF#32, 0x00000011#32⟩, ⟨"VAXPY", 0xFF0000FF#32, 0x00000012#32⟩,
   ⟨"VCOPY", 0xFFFF00FF#32, 0x00000013#32⟩, ⟨"VZERO", 0xFFFFF0FF#32, 0x00000014#32⟩,
   ⟨"SIT_CEIL", 0xFFFFFFFF#32, 0x00000020#32⟩, ⟨"SIT_LOOKUP", 0xFFFFFFFF#32, 0x00000021#32⟩,
   ⟨"PARTITION", 0xFFFFFFFF#32, 0x00000022#32⟩, ⟨"RAND", 0xFFFFFFFF#32, 0x00000023#32⟩,
   ⟨"DEG", 0xFFFFFFFF#32, 0x00000024#32⟩, ⟨"BLK_CONFIG", 0xFFFFFFFF#32, 0x00000030#32⟩,
   ⟨"TUPLE", 0xFFFFFFFF#32, 0x00000031#32⟩, ⟨"BUILD_A", 0xFFFFFFFF#32, 0x00000032#32⟩,
   ⟨"ROW_PATTERN", 0xFFFFFFFF#32, 0x00000033#32⟩, ⟨"LT_ENC", 0xFFFFFFFF#32, 0x00000034#32⟩,
   ⟨"PI_SOLVE", 0xFFFFFFFF#32, 0x00000038#32⟩, ⟨"BLK_ENCODE", 0xFFFFFFFF#32, 0x00000040#32⟩,
   ⟨"BLK_SYMBOL", 0xFFFFFFFF#32, 0x00000041#32⟩, ⟨"BLK_DECODE", 0xFFFFFFFF#32, 0x00000042#32⟩]

/-- The command word that the low `nbits` bits of `w` make, the bits above them zero; none when they need more than the
32 bits of a command word (R80). -/
def tableWord (nbits w : Nat) : Option Word :=
  if w % 2 ^ nbits < 2 ^ 32 then some (BitVec.ofNat 32 (w % 2 ^ nbits)) else none

/-- The command the decoder reads from the bits of an opcode-table row (none where it refuses). -/
def decodeTableWord (nbits w : Nat) : Option Instr :=
  match tableWord nbits w with
  | none => none
  | some c =>
    match decode c with
    | .ok i => some i
    | .error _ => none

end Sys2Proof
end

