-- ==== Sys2Proof/Config.lean ====
section
/-! DEFINITION. What is fixed when the hardware is built (spec/00_scope.md R8, R9), as plain data, and the model's
free values: opaque constants of which nothing can be proved. -/

namespace Sys2Proof

/-- One row (K', J, S, H, W) of SIT_ROM (10_state.md R32). -/
structure SitRow where
  kp : Nat
  j : Nat
  s : Nat
  h : Nat
  w : Nat
deriving DecidableEq, Repr, Inhabited

/-- One column of HDPC_MT whose row set is not the RFC's two-row set: for H = `h`, column `j` of MT holds 1 at `rows`
(42_tuple_matrix.md R183; assumption log 6). -/
structure HdpcEntry where
  h : Nat
  j : Nat
  rows : List Nat
deriving DecidableEq, Repr, Inhabited

/-- The build of one RQCORE: the parameters of R8 and R9 and the contents of the five read-only memories of
10_state.md R30 to R33. No step changes it (R332; assumption log 2). -/
structure Build where
  /-- K_MAX, the largest K that BLK_CONFIG accepts. -/
  kMax : Nat
  /-- T_MAX, the largest symbol size in bytes. -/
  tMax : Nat
  /-- L_MAX, the rows of SYM_C and the columns of MAT_A and MAT_X. -/
  lMax : Nat
  /-- RX_MAX, the capacity of the received-symbol table. -/
  rxMax : Nat
  /-- GF_POLY, the reduction polynomial as a number with bit 8 set (40_gf256.md R100). -/
  gfPoly : Nat
  /-- EXP_ROM (R30). -/
  expRom : List Byte
  /-- LOG_ROM (R31): the entry at index x - 1 is the logarithm of x. -/
  logRom : List Byte
  /-- SIT_ROM, the parameter SIT_TABLE (R32). -/
  sit : List SitRow
  /-- RAND_ROM, the parameter RAND_V: the four tables of 41_tables.md R148. -/
  v0 : List Word
  v1 : List Word
  v2 : List Word
  v3 : List Word
  /-- DEG_ROM, the parameter DEG_F (41_tables.md R150). -/
  degF : List Nat
  /-- HDPC_MT, where it is not the RFC's formula (42_tuple_matrix.md R183). -/
  hdpcMt : List HdpcEntry
deriving DecidableEq, Repr, Inhabited

/-- M_MAX = L_MAX + RX_MAX (R8). -/
abbrev Build.mMax (b : Build) : Nat := b.lMax + b.rxMax

/-- FREE VALUE. The build the hardware was made with: any legal one (R8, R9; I12 to I16; assumption log 2). -/
opaque Config.rawBuild : Build

/-- FREE VALUE. The byte that the host bus returns where the spec gives none, for an epoch and a host byte address: a host
read of a location that holds no value, or a refused read (10_state.md R46, 20_memory.md R68; I1, I2, I3; assumption
log 9). -/
opaque Config.freeByte : Nat → Nat → Byte

/-- FREE VALUE. EXP_ROM at an index of 510 or more, which "has no value" (40_gf256.md R104) and which the last column
of MT reads when H > 510 (42_tuple_matrix.md R183; assumption log 7). -/
opaque Config.expBeyond : Nat → Byte

end Sys2Proof
end

