-- ==== Sys2Proof/Machine/Build.lean ====
section
/-! DEFINITION. Which builds are legal (spec/00_scope.md R8, R9; 10_state.md R30 to R33), and the build that reset finds. -/

namespace Sys2Proof.Machine

/-- `sit_ceil(K)`: the K' of the first SIT_ROM row whose K' >= K (41_tables.md R140). -/
def sitCeil (sit : List SitRow) (k : Nat) : Option Nat :=
  (sit.find? (fun r => k ≤ r.kp)).map (fun r => r.kp)

/-- `sit_lookup(K')`: the SIT_ROM row whose first element equals K' (41_tables.md R141). -/
def sitLookup (sit : List SitRow) (kp : Nat) : Option SitRow :=
  sit.find? (fun r => r.kp = kp)

/-- The sizes obey the constraints of R8; the last clause is L_MAX >= L of every K' that some K <= K_MAX maps to. -/
abbrev SizesOk (b : Build) : Prop :=
  10 ≤ b.kMax ∧ b.kMax ≤ 56403 ∧ 1 ≤ b.tMax ∧ b.tMax ≤ 65535 ∧ b.lMax ≤ 65536 ∧ b.kMax ≤ b.rxMax ∧ b.rxMax ≤ 65536 ∧
  (∀ r ∈ b.sit, r.kp < b.kMax ∨ sitCeil b.sit b.kMax = some r.kp → r.kp + r.s + r.h ≤ b.lMax)

/-- SIT_ROM has strictly rising K', from 10 to 56403 (R32), and every entry fits a 32-bit register (R8). -/
abbrev SitOk (sit : List SitRow) : Prop :=
  sit.Pairwise (fun r t => r.kp < t.kp) ∧ sit.head?.map (fun r => r.kp) = some 10 ∧
  sit.getLast?.map (fun r => r.kp) = some 56403 ∧
  (∀ r ∈ sit, r.j < 2 ^ 32 ∧ r.s < 2 ^ 32 ∧ r.h < 2 ^ 32 ∧ r.w < 2 ^ 32)

/-- RAND_ROM has four tables of 256 words (41_tables.md R148). -/
abbrev RandOk (b : Build) : Prop :=
  b.v0.length = 256 ∧ b.v1.length = 256 ∧ b.v2.length = 256 ∧ b.v3.length = 256

/-- DEG_ROM has 31 strictly rising entries from 0 to 2^20 (41_tables.md R150). -/
abbrev DegOk (degF : List Nat) : Prop :=
  degF.length = 31 ∧ degF.getD 0 1 = 0 ∧ degF.getD 30 0 = 2 ^ 20 ∧ degF.Pairwise (fun x y => x < y)

/-- HDPC_MT gives a column two or three different rows of [0, H) (42_tuple_matrix.md R183). -/
abbrev HdpcOk (mt : List HdpcEntry) : Prop :=
  ∀ e ∈ mt, (e.rows.length = 2 ∨ e.rows.length = 3) ∧ e.rows.Nodup ∧ ∀ r ∈ e.rows, r < e.h

/-- The parameters of R8 and R9 are legal; EXP_ROM and LOG_ROM are judged apart. -/
abbrev ParamsOk (b : Build) : Prop :=
  SizesOk b ∧ SitOk b.sit ∧ RandOk b ∧ DegOk b.degF ∧ HdpcOk b.hdpcMt

/-- A legal build (R8, R9, R30 to R33, R100). -/
abbrev BuildOk (b : Build) : Prop :=
  ParamsOk b ∧ GfTablesOk b.gfPoly b.expRom b.logRom

/-- One legal build, which stands in where the free `Config.rawBuild` is not legal. No proof can tell which of the two
reset finds, and its tables are nobody's (assumption log 2). -/
def standInBuild : Build where
  kMax := 10
  tMax := 1
  lMax := 27
  rxMax := 10
  gfPoly := gfPolyDefault
  expRom := gfExpRom
  logRom := gfLogRom
  sit := [⟨10, 254, 7, 10, 17⟩, ⟨56403, 0, 1, 2, 3⟩]
  v0 := List.replicate 256 0
  v1 := List.replicate 256 0
  v2 := List.replicate 256 0
  v3 := List.replicate 256 0
  degF := List.range 30 ++ [2 ^ 20]
  hdpcMt := []

/-- The build that reset finds: any legal parameters, with the default field (R8, R9, R100, R332; assumption logs 2, 3). -/
def resetBuild : Build :=
  { (if ParamsOk Config.rawBuild then Config.rawBuild else standInBuild) with
    gfPoly := gfPolyDefault, expRom := gfExpRom, logRom := gfLogRom }

end Sys2Proof.Machine
end

