-- ==== Sys2Proof/Machine/State.lean ====
section
/-! DEFINITION. The state of RQCORE (spec/10_state.md R20 to R50) as plain data, the reasons a step can stop, and the
state after reset (70_reset_and_hazards.md R330). -/

namespace Sys2Proof.Machine

/-- The failure codes that `raise Fail(code)` reports (60_exceptions.md R300); NONE (0x00) is no failure. -/
inductive FailCode where
  | illegalCommand
  | notConfigured
  | domain
  | range
  | notSolved
  | invalidParameters
  | decodingFailurePh1
  | decodingFailurePh2
  | decodingFailureInsufficient
deriving DecidableEq, Repr

/-- The fields of STATUS (10_state.md R23); its other bits are reserved and read as zero. -/
structure Status where
  busy : Bool
  done : Bool
  err : Bool
  ovr : Bool
  cfgValid : Bool
  cValid : Bool
  errCode : Byte
deriving DecidableEq, Repr

/-- The block parameter registers CFG_K to CFG_B (10_state.md R34), in the order of their offsets. -/
structure BlockParams where
  k : Word
  t : Word
  kp : Word
  j : Word
  s : Word
  h : Word
  w : Word
  l : Word
  p : Word
  p1 : Word
  u : Word
  b : Word
deriving DecidableEq, Repr

/-- What the HOST agent does next (20_memory.md R69: one access at a time; assumption logs 1, 14). -/
inductive HostEvent where
  /-- A read of `n` bytes at a host byte address. -/
  | read (addr : BitVec 48) (n : Nat)
  /-- A write of the low `n` bytes of `v` at a host byte address. -/
  | write (addr : BitVec 48) (n : Nat) (v : BitVec 64)
  /-- Reset (70_reset_and_hazards.md R330). -/
  | reset
  /-- The host makes no access: the turn is the core's. -/
  | coreTurn
deriving DecidableEq, Repr

/-- What the host bus answered to the last host access (assumption log 10). -/
inductive BusResponse where
  /-- No access yet since reset. -/
  | idle
  /-- A write was admitted. -/
  | written
  /-- A read was admitted and returned this value. -/
  | data (v : BitVec 64)
  /-- A host fault event: the access was outside the populated map, misaligned or of an unsupported width
  (20_memory.md R62, R65). -/
  | busError
  /-- A host fault event: a write was refused (10_state.md R22, 20_memory.md R68). -/
  | refusedWrite
  /-- A host fault event: a read was refused and returned this unspecified value (20_memory.md R68). -/
  | refusedRead (v : BitVec 64)
deriving DecidableEq, Repr

/-- The banks: (host byte address, byte) pairs with strictly rising addresses. An unlisted address holds "no value"
(10_state.md R46; assumption log 8). -/
abbrev Memory := List Host.Cell

/-- The state of RQCORE and, in its last four fields, of the host that drives it. -/
structure State where
  /-- The read-only memories and the parameters fixed when the hardware was built (R30 to R33, R8, R9). -/
  build : Build
  /-- The command word that CORE latched at the last issue (R22, R45). -/
  cmd : Word
  /-- STATUS (R23). -/
  status : Status
  /-- ARG0 to ARG7 (R29). -/
  args : Vector Word 8
  /-- RES0 to RES7 (R29). -/
  res : Vector Word 8
  /-- CFG_K to CFG_B (R34). -/
  cfg : BlockParams
  /-- M_ROWS (R35). -/
  mRows : Word
  /-- MAT_A, MAT_X, SYM_D, SYM_C, SYM_SRC, SYM_RX, SYM_OUT, PERM_C, ROW_D and RX_ESI (R36 to R43). -/
  mem : Memory
  /-- MODEL's own: the bytes that host writes stored at the addresses of PERM_C, ROW_D and MAT_X. Only CORE writes the banks
  themselves (R20, R37, R43), which hold no value outside a solve, so that a host read of them is unspecified (R46); that it
  returns the bytes that the host stored there is 20_memory.md R66 and R74 (assumption log 12). -/
  hostCopy : Memory
  /-- MODEL's own: what the host does next. -/
  host : List HostEvent
  /-- MODEL's own: the answer of the host bus to the last access. -/
  bus : BusResponse
  /-- MODEL's own: the epoch of the free bytes that host reads return. An issue, a refused read and a reset begin a new
  one; an admitted read does not, so that it can be repeated (20_memory.md R66; assumption log 9). -/
  freeEpoch : Nat
deriving DecidableEq, Repr

/-- Why a step of the machine stops. -/
inductive Fault where
  /-- A command's rule reads a bank location that holds no value (10_state.md R46, 70_reset_and_hazards.md R331, D42).
  Raised by the vector, LT, solver and block commands. The spec itself makes this a model fault; SAFE: no claim about
  what hardware does with the unspecified bytes can be proved. -/
  | noValue
deriving DecidableEq, Repr

/-- Why a step has no meaning. No arm of `exec` and no meaning answers with one. -/
inductive Refusal where
  /-- An instruction that the model does not give a meaning. Raised by no arm of this model; SAFE. -/
  | notModelled (mnemonic : String)
deriving DecidableEq, Repr

/-- STATUS = 0x00000000 (R23, R330). -/
def Status.reset : Status := ⟨false, false, false, false, false, false, 0x00#8⟩

/-- The twelve CFG registers at 0 (R34, R330). -/
def BlockParams.reset : BlockParams := ⟨0, 0, 0, 0, 0, 0, 0, 0, 0, 0, 0, 0⟩

/-- The machine right after reset (70_reset_and_hazards.md R330 to R332): every register 0, nothing latched, every bank
location without value, the read-only memories at their constant contents; the host has nothing to do yet. -/
def State.reset : State where
  build := resetBuild
  cmd := 0
  status := Status.reset
  args := Vector.replicate 8 0
  res := Vector.replicate 8 0
  cfg := BlockParams.reset
  mRows := 0
  mem := []
  hostCopy := []
  host := []
  bus := .idle
  freeEpoch := 0

end Sys2Proof.Machine
end

