-- ==== Sys2Proof/Machine/Flags.lean ====
section
/-! DEFINITION. Every change that the spec makes to STATUS, and the word the host reads (spec/10_state.md R22 to R28). -/

namespace Sys2Proof.Machine

/-- The ERRCODE value of a failure code (60_exceptions.md R300). -/
def FailCode.code : FailCode → Byte
  | .illegalCommand => 0x01#8
  | .notConfigured => 0x02#8
  | .domain => 0x03#8
  | .range => 0x04#8
  | .notSolved => 0x05#8
  | .invalidParameters => 0x10#8
  | .decodingFailurePh1 => 0x20#8
  | .decodingFailurePh2 => 0x21#8
  | .decodingFailureInsufficient => 0x22#8

/-- The STATUS register as the host reads it (R23): reserved bits are zero. -/
def Status.toWord (f : Status) : Word :=
  0#16 ++ f.errCode ++ 0#2 ++ BitVec.ofBool f.cValid ++ BitVec.ofBool f.cfgValid ++ BitVec.ofBool f.ovr ++
    BitVec.ofBool f.err ++ BitVec.ofBool f.done ++ BitVec.ofBool f.busy

/-- A host write to STATUS: clear each W1C bit whose written bit is 1; bit 2 also clears ERRCODE (R23, R304). -/
def Status.writeOneToClear (f : Status) (v : Word) : Status :=
  { f with
    done := f.done && !v.getLsbD 1
    err := f.err && !v.getLsbD 2
    ovr := f.ovr && !v.getLsbD 3
    errCode := if v.getLsbD 2 then 0x00#8 else f.errCode }

/-- Issue: BUSY <- 1, DONE <- 0 (R22, R24, R25). -/
def Status.issue (f : Status) : Status := { f with busy := true, done := false }

/-- Completion: BUSY <- 0, DONE <- 1 (R24, R25, R45). -/
def Status.complete (f : Status) : Status := { f with busy := false, done := true }

/-- Failure entry: ERR <- 1, ERRCODE <- code, BUSY <- 0, DONE <- 1 in one step (60_exceptions.md R303). -/
def Status.fail (f : Status) (c : FailCode) : Status :=
  { f with busy := false, done := true, err := true, errCode := c.code }

/-- A host access was refused: OVR <- 1 (R27). -/
def Status.refuse (f : Status) : Status := { f with ovr := true }

/-- STATUS.CFG_VALID <- v (41_tables.md R152). -/
def Status.setCfgValid (f : Status) (v : Bool) : Status := { f with cfgValid := v }

/-- STATUS.C_VALID <- v (R28). -/
def Status.setCValid (f : Status) (v : Bool) : Status := { f with cValid := v }

end Sys2Proof.Machine
end

