-- ==== Sys2Proof/Machine/Memory.lean ====
section
/-! DEFINITION. The banks as one memory over the host window: the canonical form, the operations on bytes and 32-bit
words (20_memory.md R63), and where each bank lies (R60, R61). -/

namespace Sys2Proof.Machine

/-- The canonical form: addresses strictly rising. No entry can equal what an unlisted address reads as, since that is
no value (assumption log 8). -/
abbrev Memory.wf (m : Memory) : Prop := m.Pairwise (fun x y => x.1 < y.1)

/-- The byte at an address, or none where it holds no value (10_state.md R46). -/
def Memory.read : Memory → Nat → Option Byte
  | [], _ => none
  | (x, v) :: m, a => if x = a then some v else Memory.read m a

/-- Store one byte, keeping the canonical form. -/
def Memory.write : Memory → Nat → Byte → Memory
  | [], a, v => [(a, v)]
  | (x, w) :: m, a, v =>
    if a < x then (a, v) :: (x, w) :: m
    else if a = x then (a, v) :: m
    else (x, w) :: Memory.write m a v

/-- Store bytes at rising addresses from `a` on. -/
def Memory.writeBytes : Memory → Nat → List Byte → Memory
  | m, _, [] => m
  | m, a, v :: vs => Memory.writeBytes (Memory.write m a v) (a + 1) vs

/-- The `n` bytes from `a` on, or none if one of them holds no value. -/
def Memory.readBytes (m : Memory) : Nat → Nat → Option (List Byte)
  | _, 0 => some []
  | a, n + 1 =>
    match Memory.read m a with
    | none => none
    | some v => (Memory.readBytes m (a + 1) n).map (v :: ·)

/-- Make every address that `p` selects hold no value (44_pi_solver.md R246). -/
def Memory.clear (m : Memory) (p : Nat → Bool) : Memory := m.filter (fun x => !p x.1)

/-- Little-endian: the value of a list of bytes, the first byte least significant (20_memory.md R63). -/
def natOfBytes : List Byte → Nat
  | [] => 0
  | v :: vs => v.toNat + 256 * natOfBytes vs

/-- Little-endian: the low `n` bytes of a value, the least significant first (20_memory.md R63). -/
def bytesOfNat : Nat → Nat → List Byte
  | 0, _ => []
  | n + 1, v => BitVec.ofNat 8 v :: bytesOfNat n (v / 256)

/-- The 32-bit word at an address (R63). -/
def Memory.readWord (m : Memory) (a : Nat) : Option Nat := (m.readBytes a 4).map natOfBytes

/-- The regions of the host window that hold banks (R60). -/
inductive Region where
  | permC
  | rowD
  | rxEsi
  | matA
  | matX
  | symD
  | symC
  | symSrc
  | symRx
  | symOut
deriving DecidableEq, Repr

/-- The host byte address of a region (R60). -/
def Region.base : Region → Nat
  | .permC => 0x000100000000
  | .rowD => 0x000200000000
  | .rxEsi => 0x000300000000
  | .matA => 0x100000000000
  | .matX => 0x200000000000
  | .symD => 0x300000000000
  | .symC => 0x400000000000
  | .symSrc => 0x500000000000
  | .symRx => 0x600000000000
  | .symOut => 0x700000000000

/-- The populated size of a region in bytes (R60). -/
def Region.size (b : Build) : Region → Nat
  | .permC => 4 * b.lMax
  | .rowD => 4 * b.mMax
  | .rxEsi => 4 * b.rxMax
  | .matA => b.mMax * b.lMax
  | .matX => b.mMax * b.lMax
  | .symD => b.mMax * b.tMax
  | .symC => b.lMax * b.tMax
  | .symSrc => b.kMax * b.tMax
  | .symRx => b.rxMax * b.tMax
  | .symOut => b.tMax

/-- The regions of 32-bit words (R60, R65). -/
def Region.isWords : Region → Bool
  | .permC => true
  | .rowD => true
  | .rxEsi => true
  | .matA => false
  | .matX => false
  | .symD => false
  | .symC => false
  | .symSrc => false
  | .symRx => false
  | .symOut => false

/-- The regions that only CORE writes (10_state.md R20, R37, R43). -/
def Region.coreOnly : Region → Bool
  | .permC => true
  | .rowD => true
  | .matX => true
  | .rxEsi => false
  | .matA => false
  | .symD => false
  | .symC => false
  | .symSrc => false
  | .symRx => false
  | .symOut => false

/-- Every bank region. -/
def Region.all : List Region :=
  [.permC, .rowD, .rxEsi, .matA, .matX, .symD, .symC, .symSrc, .symRx, .symOut]

/-- The bytes [a, a + n) all lie in the populated part of a region (R62). -/
def Region.holds (b : Build) (r : Region) (a n : Nat) : Bool :=
  r.base ≤ a && a + n ≤ r.base + r.size b

/-- The address of column 0 of a row of MAT_A or MAT_X (R61). -/
def matRow (b : Build) (r : Region) (row : Nat) : Nat := r.base + row * b.lMax

/-- The address of byte 0 of a row of a symbol bank (R61). -/
def symRow (b : Build) (r : Region) (row : Nat) : Nat := r.base + row * b.tMax

/-- The address of a 32-bit word of PERM_C, ROW_D or RX_ESI (R61). -/
def wordAt (r : Region) (n : Nat) : Nat := r.base + 4 * n

end Sys2Proof.Machine
end

