-- ==== Sys2Proof/Machine/Ops.lean ====
section
/-! DEFINITION. The named operations over registers and banks, and the one failure entry and the completion that every
command ends in (spec/60_exceptions.md R303, 10_state.md R45). -/

namespace Sys2Proof.Machine

/-- The outcome of a command or of a step. -/
abbrev Out := Host.Outcome State Fault Refusal

/-- REG[ARGn] as a natural (10_state.md R29; 30_encoding.md R85). -/
def State.arg (s : State) (n : Fin 8) : Nat := (s.args[n]).toNat

/-- REG[RESn] <- v (10_state.md R29). -/
def State.setRes (s : State) (n : Fin 8) (v : Word) : State := { s with res := s.res.set n v }

/-- REG[M_ROWS] <- m (10_state.md R35). -/
def State.setMRows (s : State) (m : Nat) : State := { s with mRows := word m }

/-- STATUS.C_VALID <- v (10_state.md R28). -/
def State.setCValid (s : State) (v : Bool) : State := { s with status := s.status.setCValid v }

/-- STATUS.CFG_VALID <- v (10_state.md R28). -/
def State.setCfgValid (s : State) (v : Bool) : State := { s with status := s.status.setCfgValid v }

/-- Replace the banks. -/
def State.setMem (s : State) (m : Memory) : State := { s with mem := m }

/-- `raise Fail(code)`: the one failure entry (00_scope.md R14, 60_exceptions.md R303). The caller passes the state with
the writes that the command's rule lists before this point. The return from a failure is the host's STATUS write
(`Status.writeOneToClear`, R304). -/
def State.raiseFail (s : State) (c : FailCode) : State := { s with status := s.status.fail c }

/-- Completion of a successful command: BUSY <- 0, DONE <- 1 (10_state.md R45). -/
def State.complete (s : State) : State := { s with status := s.status.complete }

/-- Issue of a command word: CORE latches it, BUSY <- 1, DONE <- 0 (10_state.md R22). The command may leave locations without
value, so the free bytes of later host reads are new ones (assumption log 9). -/
def State.issue (s : State) (w : Word) : State :=
  { s with cmd := w, status := s.status.issue, freeEpoch := s.freeEpoch + 1 }

/-- A command's end with no more to read: its next state, completed. -/
def finish (s : State) : Out := .next s.complete

/-- A command's end in a failure. -/
def failWith (s : State) (c : FailCode) : Out := .next (s.raiseFail c)

/-- A command goes on with a value that it read from a bank; a location that holds no value is a model fault
(10_state.md R46). -/
def orNoValue {α : Type} (o : Option α) (k : α → Out) : Out :=
  match o with
  | none => .fault .noValue
  | some v => k v

/-- The check of CFG_VALID that every command with a configured block makes first (60_exceptions.md R300, R301). -/
def needConfig (s : State) (k : Out) : Out :=
  if s.status.cfgValid then k else failWith s .notConfigured

/-- T = REG[CFG_T], the length of every symbol (40_gf256.md R120). -/
def State.symLen (s : State) : Nat := s.cfg.t.toNat

/-- The T bytes of the symbol at an address, or none if one of them holds no value (20_memory.md R67). -/
def State.readSymbol (s : State) (a : Nat) : Option Symbol := s.mem.readBytes a s.symLen

/-- Store a symbol's bytes at an address (20_memory.md R67). -/
def State.writeSymbol (s : State) (a : Nat) (v : Symbol) : State := s.setMem (s.mem.writeBytes a v)

/-- The symbol in row `row` of a bank. -/
def State.readSymRow (s : State) (r : Region) (row : Nat) : Option Symbol := s.readSymbol (symRow s.build r row)

/-- Store a symbol in row `row` of a bank. -/
def State.writeSymRow (s : State) (r : Region) (row : Nat) (v : Symbol) : State :=
  s.writeSymbol (symRow s.build r row) v

/-- The symbols in the given rows of a bank, or none if one of their bytes holds no value. -/
def State.readSymRows (s : State) (r : Region) : List Nat → Option (List Symbol)
  | [] => some []
  | row :: rows =>
    match s.readSymRow r row with
    | none => none
    | some v => (State.readSymRows s r rows).map (v :: ·)

/-- Store symbols in the given rows of a bank, in order. -/
def State.writeSymRows (s : State) (r : Region) : List (Nat × Symbol) → State
  | [] => s
  | (row, v) :: rest => State.writeSymRows (s.writeSymRow r row v) r rest

/-- Columns [0, L) of rows [row, row + n) of MAT_A, or none if one of the bytes holds no value. -/
def State.readMatrix (s : State) (row : Nat) : Nat → Option (List Row)
  | 0 => some []
  | n + 1 =>
    match s.mem.readBytes (matRow s.build .matA row) s.cfg.l.toNat with
    | none => none
    | some v => (State.readMatrix s (row + 1) n).map (v :: ·)

/-- Store rows into MAT_A from row `row` on, each from column 0. -/
def State.writeMatrix (s : State) (row : Nat) : List Row → State
  | [] => s
  | v :: vs => State.writeMatrix (s.setMem (s.mem.writeBytes (matRow s.build .matA row) v)) (row + 1) vs

/-- The words RX_ESI[q] to RX_ESI[q + n - 1], or none if one of them holds no value. -/
def State.readEsis (s : State) (q : Nat) : Nat → Option (List Nat)
  | 0 => some []
  | n + 1 =>
    match s.mem.readWord (wordAt .rxEsi q) with
    | none => none
    | some v => (State.readEsis s (q + 1) n).map (v :: ·)

/-- An address lies in columns [0, cols) of rows [0, rows) of a bank at `base` whose rows are `stride` bytes apart. -/
def inBlock (base stride rows cols a : Nat) : Bool :=
  base ≤ a && a < base + rows * stride && (a - base) % stride < cols

/-- The scratch of a solve of `m` rows: MAT_A and MAT_X rows [0, m) columns [0, L), ROW_D words [0, m), PERM_C words
[0, L) and SYM_D rows [0, m) bytes [0, T) (44_pi_solver.md R246). -/
def State.inScratch (s : State) (m a : Nat) : Bool :=
  inBlock Region.matA.base s.build.lMax m s.cfg.l.toNat a ||
  inBlock Region.matX.base s.build.lMax m s.cfg.l.toNat a ||
  inBlock Region.rowD.base 4 m 4 a ||
  inBlock Region.permC.base 4 s.cfg.l.toNat 4 a ||
  inBlock Region.symD.base s.build.tMax m s.symLen a

/-- After a solve, successful or not, the scratch holds no value (44_pi_solver.md R246), and a host read of it is unspecified
again, so that what the host stored at its addresses is forgotten (assumption log 12). -/
def State.clearScratch (s : State) (m : Nat) : State :=
  { s with mem := s.mem.clear (s.inScratch m), hostCopy := s.hostCopy.clear (s.inScratch m) }

end Sys2Proof.Machine
end

