-- ==== Sys2Proof/Machine/Gf256.lean ====
section
/-! DEFINITION. GF(256) arithmetic through EXP_ROM and LOG_ROM (spec/40_gf256.md R100 to R105) and its operations on
symbols and matrix rows (00_scope.md R13). -/

namespace Sys2Proof.Machine

/-- `gf_add(u, v)`, exclusive or (R101). -/
def gfAdd (u v : Byte) : Byte := u ^^^ v

/-- `gf_sub(u, v)`, exclusive or (R101). -/
def gfSub (u v : Byte) : Byte := u ^^^ v

/-- EXP_ROM[i]; an index of 510 or more has no value, so the byte is free there (R104; assumption log 7). -/
def expEntry (b : Build) (i : Nat) : Byte := if i < 510 then b.expRom.getD i 0 else Config.expBeyond i

/-- `gf_log(x)` = LOG_ROM[x - 1], for x in 1 to 255 (R105). -/
def gfLog (b : Build) (x : Byte) : Byte := b.logRom.getD (x.toNat - 1) 0

/-- `gf_mul(u, v)`, evaluated in the order of R102. -/
def gfMul (b : Build) (u v : Byte) : Byte :=
  if u = 0 ∨ v = 0 then 0
  else if u = 1 then v
  else if v = 1 then u
  else expEntry b ((gfLog b u).toNat + (gfLog b v).toNat)

/-- `gf_div(u, v)` for v nonzero, evaluated in the order of R103; GF_DIV fails before it is asked for a zero divisor, and
the solver divides by nonzero pivots only (44_pi_solver.md R247). -/
def gfDiv (b : Build) (u v : Byte) : Byte :=
  if v = 1 then u
  else if u = 0 then 0
  else expEntry b ((gfLog b u).toNat + 255 - (gfLog b v).toNat)

/-- Exclusive or of two symbols or rows, byte by byte (00_scope.md R13). -/
def xorBytes (x y : List Byte) : List Byte := List.zipWith gfAdd x y

/-- `β·row`, byte by byte (00_scope.md R13). -/
def scaleBytes (b : Build) (beta : Byte) (x : List Byte) : List Byte := x.map (gfMul b beta)

/-- `x ⊕ β·y`, the row combination of VAXPY and of the solver (40_gf256.md R123). -/
def axpyBytes (b : Build) (x : List Byte) (beta : Byte) (y : List Byte) : List Byte := xorBytes x (scaleBytes b beta y)

/-- `row / β`, byte by byte (44_pi_solver.md R232, R235). -/
def divBytes (b : Build) (x : List Byte) (beta : Byte) : List Byte := x.map (fun v => gfDiv b v beta)

/-- n zero bytes. -/
def zeroBytes (n : Nat) : List Byte := List.replicate n 0

end Sys2Proof.Machine
end

