-- ==== Sys2Proof/Machine/TableFns.lean ====
section
/-! DEFINITION. The functions of spec/41_tables.md R140 to R150: Partition, prime_ceil, Rand, Deg, the derived block
parameters and the admissibility of a table row. -/

namespace Sys2Proof.Machine

/-- `ceil(a/b)` for b > 0 (00_scope.md R10). -/
def ceilDiv (a b : Nat) : Nat := (a + b - 1) / b

/-- `partition(I, J)` for J > 0: (IS, IL, JS, JL) (R142). -/
def partitionOf (i j : Nat) : Nat × Nat × Nat × Nat :=
  (i / j, ceilDiv i j, j - (i - i / j * j), i - i / j * j)

/-- A natural greater than 1 whose only divisors are 1 and itself (R143). -/
def isPrime (n : Nat) : Bool := 2 ≤ n && (List.range n).all (fun d => d < 2 || n % d != 0)

/-- The first prime among n, n + 1, ..., looked for in `fuel` steps. -/
def primeFrom : Nat → Nat → Nat
  | 0, n => n
  | fuel + 1, n => if isPrime n then n else primeFrom fuel (n + 1)

/-- `prime_ceil(n)`, the smallest prime >= n (R143); there is one within n + 2 steps (assumption log 16). -/
def primeCeil (n : Nat) : Nat := primeFrom (n + 2) n

/-- One table read of `Rand`: V[(z + i) mod 256] (R148). -/
def randEntry (v : List Word) (z i : Nat) : Word := v.getD ((z + i) % 256) 0

/-- `Rand(y, i, m)` in its RFC 6330 form over RAND_ROM (R148; assumption log 4). -/
def randOf (b : Build) (y i m : Nat) : Nat :=
  (randEntry b.v0 y i ^^^ randEntry b.v1 (y / 2 ^ 8) i ^^^ randEntry b.v2 (y / 2 ^ 16) i ^^^
    randEntry b.v3 (y / 2 ^ 24) i).toNat % m

/-- The j in [1, 30] with DEG_F[j - 1] <= v < DEG_F[j] (R150). -/
def degIndex (b : Build) (v : Nat) : Nat :=
  ((List.range' 1 30).find? (fun j => b.degF.getD (j - 1) 0 ≤ v && v < b.degF.getD j 0)).getD 30

/-- `Deg(v, W)` in its RFC 6330 form over DEG_ROM (R150; assumption log 5). -/
def degOf (b : Build) (v w : Nat) : Nat := min (degIndex b v) (w - 2)

/-- The admissibility of a table row (R144). -/
def rowAdmissible (r : SitRow) : Bool :=
  1 ≤ r.s && 2 ≤ r.h && 3 ≤ r.w && r.s ≤ r.w && r.w ≤ r.kp + r.s

/-- The block parameters of (K, T) and a table row (R144), as BLK_CONFIG writes them (R152). -/
def blockParamsOf (k t : Nat) (r : SitRow) : BlockParams :=
  let l := r.kp + r.s + r.h
  let p := l - r.w
  { k := word k, t := word t, kp := word r.kp, j := word r.j, s := word r.s, h := word r.h, w := word r.w,
    l := word l, p := word p, p1 := word (primeCeil p), u := word (p - r.h), b := word (r.w - r.s) }

end Sys2Proof.Machine
end

