-- ==== Sys2Proof/Machine/TupleMatrix.lean ====
section
/-! DEFINITION. The tuple generator, the shared tuple-index routine and the constraint matrix (spec/42_tuple_matrix.md
R170 to R188), and the ISI of a symbol (45_block_codec.md R271), as functions of the CFG registers. -/

namespace Sys2Proof.Machine

/-- A tuple (d, a, b, d1, a1, b1) (R170). -/
structure LtTuple where
  d : Nat
  a : Nat
  b : Nat
  d1 : Nat
  a1 : Nat
  b1 : Nat
deriving DecidableEq, Repr

/-- The `y` of R170, with every product and sum exact before the reduction modulo 2^32. -/
def tupleY (j x : Nat) : Nat := (10267 * (j + 1) + ((53591 + 997 * j) ||| 1) * x) % 2 ^ 32

/-- `Tuple(X)` for the configured block (R170). -/
def tupleOf (b : Build) (c : BlockParams) (x : Nat) : LtTuple :=
  let y := tupleY c.j.toNat x
  let w := c.w.toNat
  let p1 := c.p1.toNat
  let d := degOf b (randOf b y 0 (2 ^ 20)) w
  { d := d
    a := 1 + randOf b y 1 (w - 1)
    b := randOf b y 2 w
    d1 := if d < 4 then 2 + randOf b x 3 2 else 2
    a1 := 1 + randOf b x 4 (p1 - 1)
    b1 := randOf b x 5 p1 }

/-- The LT terms after the first: n steps of b <- (b + a) mod W (R175). -/
def ltTail (w a : Nat) : Nat → Nat → List Nat
  | 0, _ => []
  | n + 1, b => ((b + a) % w) :: ltTail w a n ((b + a) % w)

/-- `while b1 >= P: b1 <- (b1 + a1) mod P1`, which ends within P1 - P steps (R175); `fuel` bounds the steps (assumption
log 16). -/
def skipPi (p p1 a1 : Nat) : Nat → Nat → Nat
  | 0, b1 => b1
  | fuel + 1, b1 => if b1 < p then b1 else skipPi p p1 a1 fuel ((b1 + a1) % p1)

/-- The PI terms after the first: n steps of b1 <- (b1 + a1) mod P1 and then the skip (R175). -/
def piTail (w p p1 a1 : Nat) : Nat → Nat → List Nat
  | 0, _ => []
  | n + 1, b1 =>
    let c := skipPi p p1 a1 p1 ((b1 + a1) % p1)
    (w + c) :: piTail w p p1 a1 n c

/-- `TupleIndices`, the intermediate-symbol indices in visiting order (R175). -/
def tupleIndices (w p p1 : Nat) (t : LtTuple) : List Nat :=
  let c := skipPi p p1 t.a1 p1 t.b1
  t.b :: ltTail w t.a (t.d - 1) t.b ++ ((w + c) :: piTail w p p1 t.a1 (t.d1 - 1) c)

/-- `TupleIndices(Tuple(X))` for the configured block. -/
def indicesOf (b : Build) (c : BlockParams) (x : Nat) : List Nat :=
  tupleIndices c.w.toNat c.p.toNat c.p1.toNat (tupleOf b c x)

/-- `row[idx] <- row[idx] XOR 1` for every index of the list, in order (R187). -/
def toggleAll : List Nat → Row → Row
  | [], row => row
  | n :: ns, row => toggleAll ns (row.modify n (gfAdd · 1))

/-- `pattern(X)`, a G_ENC row of L bytes: 1 at the indices that occur an odd number of times (R187). -/
def patternOf (b : Build) (c : BlockParams) (x : Nat) : Row :=
  toggleAll (indicesOf b c x) (zeroBytes c.l.toNat)

/-- `ISI(esi)` (45_block_codec.md R271). -/
def isiOf (c : BlockParams) (esi : Nat) : Nat :=
  if esi < c.k.toNat then esi else esi + (c.kp.toNat - c.k.toNat)

/-- The entry of an LDPC row, r < S: LDPC1, I_S and LDPC2 (R181, R182, R188). -/
def ldpcEntry (c : BlockParams) (r col : Nat) : Byte :=
  let s := c.s.toNat
  let m := col / s
  let t := col % s
  let hit :=
    if col < c.b.toNat then
      r = t ∨ r = (t + (m + 1)) % s ∨ r = (t + 2 * (m + 1)) % s
    else if col < c.w.toNat then
      col = c.b.toNat + r
    else
      col = c.w.toNat + r % c.p.toNat ∨ col = c.w.toNat + (r + 1) % c.p.toNat
  if hit then 1 else 0

/-- `mt_ones(j)` of the parameter HDPC_MT: the RFC's two rows, unless the build gives this column of this H other ones
(R183; assumption log 6). -/
def mtOnes (b : Build) (h j : Nat) : List Nat :=
  match b.hdpcMt.find? (fun e => e.h = h ∧ e.j = j) with
  | some e => e.rows
  | none =>
    let r := randOf b (j + 1) 6 h
    [r, (r + randOf b (j + 1) 7 (h - 1) + 1) % h]

/-- MT[h][k], of H rows and `n` = K' + S columns (R183). -/
def mtEntry (b : Build) (hh n h k : Nat) : Byte :=
  if k + 1 = n then expEntry b h
  else if (mtOnes b hh k).contains h then 1 else 0

/-- GAMMA[r][c] (R184; the exponent is reduced modulo 256, 90_conflicts.md C5). -/
def gammaEntry (b : Build) (r c : Nat) : Byte :=
  if c ≤ r then expEntry b ((r - c) % 256) else 0

/-- The exclusive or of `f k` over a list of k. -/
def xorSum (f : Nat → Byte) : List Nat → Byte
  | [] => 0
  | k :: ks => gfAdd (f k) (xorSum f ks)

/-- The entry of HDPC row h < H: the product MT·GAMMA and I_H (R185, R186, R188). -/
def hdpcEntry (b : Build) (c : BlockParams) (h col : Nat) : Byte :=
  let n := c.kp.toNat + c.s.toNat
  if col < n then
    xorSum (fun k => gfMul b (mtEntry b c.h.toNat n h k) (gammaEntry b k col)) (List.range' col (n - col))
  else if col = c.w.toNat + c.u.toNat + h then 1 else 0

/-- `ConstraintMatrix` of the configured block: S LDPC rows, H HDPC rows, K' G_ENC rows (R180). -/
def constraintMatrix (b : Build) (c : BlockParams) : List Row :=
  (List.range c.s.toNat).map (fun r => (List.range c.l.toNat).map (ldpcEntry c r)) ++
  (List.range c.h.toNat).map (fun h => (List.range c.l.toNat).map (hdpcEntry b c h)) ++
  (List.range c.kp.toNat).map (patternOf b c)

end Sys2Proof.Machine
end

