-- ==== Sys2Proof/Machine/MatrixCmds.lean ====
section
/-! DEFINITION. TUPLE, BUILD_A, ROW_PATTERN and LT_ENC (spec/42_tuple_matrix.md R171, R190, R191; 43_lt_encoder.md
R210, R211). -/

namespace Sys2Proof.Machine

/-- RES0 to RES5 <- a tuple (R171). -/
def State.setResTuple (s : State) (t : LtTuple) : State :=
  (((((s.setRes 0 (word t.d)).setRes 1 (word t.a)).setRes 2 (word t.b)).setRes 3 (word t.d1)).setRes 4
    (word t.a1)).setRes 5 (word t.b1)

/-- TUPLE: RES0 to RES5 <- Tuple(ARG0) (R171). -/
def execTuple (s : State) : Out :=
  needConfig s <| finish (s.setResTuple (tupleOf s.build s.cfg (s.arg 0)))

/-- BUILD_A: MAT_A rows and columns [0, L) <- ConstraintMatrix, M_ROWS <- L (R190). -/
def execBuildA (s : State) : Out :=
  needConfig s <| finish ((s.writeMatrix 0 (constraintMatrix s.build s.cfg)).setMRows s.cfg.l.toNat)

/-- ROW_PATTERN: columns [0, L) of MAT_A row ARG0 <- pattern(ARG1), or RANGE (R191). -/
def execRowPattern (s : State) : Out :=
  needConfig s <|
    if s.build.mMax ≤ s.arg 0 then failWith s .range
    else finish (s.writeMatrix (s.arg 0) [patternOf s.build s.cfg (s.arg 1)])

/-- XOR the SYM_C rows of a list of indices into `acc`, in order; none if a byte of one holds no value (43_lt_encoder.md
R210). -/
def State.xorRowsC (s : State) : List Nat → Symbol → Option Symbol
  | [], acc => some acc
  | n :: ns, acc =>
    match s.readSymRow .symC n with
    | none => none
    | some v => State.xorRowsC s ns (xorBytes acc v)

/-- `enc(X)` (43_lt_encoder.md R210). -/
def State.enc (s : State) (x : Nat) : Option Symbol :=
  s.xorRowsC (indicesOf s.build s.cfg x) (zeroBytes s.symLen)

/-- LT_ENC: SYM_OUT <- enc(ARG0), or NOT_SOLVED while C_VALID = 0 (43_lt_encoder.md R211). -/
def execLtEnc (s : State) : Out :=
  needConfig s <|
    if s.status.cValid then orNoValue (s.enc (s.arg 0)) fun v => finish (s.writeSymRow .symOut 0 v)
    else failWith s .notSolved

end Sys2Proof.Machine
end

