-- ==== Sys2Proof/Machine/PiSolver.lean ====
section
/-! DEFINITION. The Permanent Inactivation solver (spec/44_pi_solver.md R220 to R236) as a function of the matrix A and
the right-hand side D. Its working values live in `Solver`, which is no architectural state (10_state.md R47). -/

namespace Sys2Proof.Machine

/-- The solver's state: A, the saved copy X, D, the row labels d and the column permutation c (R220). -/
structure Solver where
  a : List Row
  x : List Row
  d : List Symbol
  rowD : List Nat
  permC : List Nat
deriving DecidableEq, Repr

/-- The block parameters the solver reads: S, H, P, L, and T. -/
structure SolveDims where
  s : Nat
  h : Nat
  p : Nat
  l : Nat
  t : Nat
deriving DecidableEq, Repr

/-- A[r][c] or X[r][c]. -/
def entryOf (m : List Row) (r c : Nat) : Byte := (m.getD r []).getD c 0

/-- `swap(x, y)` of two places of a list; nothing happens when one of them is beyond its end (00_scope.md R15). -/
def swapAt {α : Type} (l : List α) (i j : Nat) : List α :=
  match l[i]?, l[j]? with
  | some x, some y => (l.set i y).set j x
  | none, _ => l
  | some _, none => l

/-- d[s] of a logical row. -/
def Solver.label (st : Solver) (s : Nat) : Nat := st.rowD.getD s 0

/-- D[d[s]], the right-hand side of a logical row. -/
def Solver.rhs (st : Solver) (s : Nat) : Symbol := st.d.getD (st.label s) []

/-- D[d[s]] <- v. -/
def Solver.setRhs (st : Solver) (s : Nat) (v : Symbol) : Solver := { st with d := st.d.set (st.label s) v }

/-- A[k] <- v. -/
def Solver.setRow (st : Solver) (k : Nat) (v : Row) : Solver := { st with a := st.a.set k v }

/-- `A[k] ^= β·A[src]; D[d[k]] ^= β·D[d[src]]`, the row combination of R229 and R232. -/
def Solver.addScaled (b : Build) (st : Solver) (k src : Nat) (beta : Byte) : Solver :=
  (st.setRow k (axpyBytes b (st.a.getD k []) beta (st.a.getD src []))).setRhs k (axpyBytes b (st.rhs k) beta (st.rhs src))

/-- Initialisation (R221). -/
def Solver.init (l : Nat) (a : List Row) (d : List Symbol) : Solver :=
  { a := a, x := a, d := d, rowD := List.range a.length, permC := List.range l }

/-- The columns of the window [i, hi) where a row is nonzero, rising. -/
def nonzeroCols (row : Row) (i hi : Nat) : List Nat := (List.range' i (hi - i)).filter (fun j => row.getD j 0 != 0)

/-- nz(k): the number of nonzero entries of a row in columns [i, hi) (R223). -/
def nzCount (row : Row) (i hi : Nat) : Nat := ((row.take hi).drop i).countP (· != 0)

/-- A logical row is an HDPC row when its label is in [S, S + H) (R222). -/
def isHdpcRow (m : SolveDims) (st : Solver) (k : Nat) : Bool := m.s ≤ st.label k && st.label k < m.s + m.h

/-- The rows k >= i with nz(k) >= 1 in the window, rising, with their nz(k), HDPC rows or the others (R224). -/
def windowRows (m : SolveDims) (st : Solver) (i hi : Nat) (hdpc : Bool) : List (Nat × Nat) :=
  ((List.range' i (st.a.length - i)).map (fun k => (k, nzCount (st.a.getD k []) i hi))).filter
    (fun q => 1 ≤ q.2 && isHdpcRow m st q.1 == hdpc)

/-- An edge of the graph of R226: a row and its two columns. -/
structure Edge where
  row : Nat
  c1 : Nat
  c2 : Nat
deriving DecidableEq, Repr

/-- The edges: the rows with exactly two nonzeros in the window (R226). -/
def edgesOf (st : Solver) (rows : List (Nat × Nat)) (i hi : Nat) : List Edge :=
  (rows.filter (fun q => q.2 == 2)).filterMap (fun q =>
    match nonzeroCols (st.a.getD q.1 []) i hi with
    | [x, y] => some ⟨q.1, x, y⟩
    | _ => none)

/-- Join an edge into disjoint components: the components that hold an end of it become one. -/
def joinEdge (comps : List (List Nat)) (e : Edge) : List (List Nat) :=
  let touches := fun (c : List Nat) => c.contains e.c1 || c.contains e.c2
  (((comps.filter touches).flatten.insert e.c1).insert e.c2) :: comps.filter (fun c => !touches c)

/-- The connected components, each the list of its columns (R226). -/
def componentsOf (edges : List Edge) : List (List Nat) := edges.foldl joinEdge []

/-- The lowest edge row whose edge lies in a component of maximum size (R226). -/
def graphChoice (edges : List Edge) : Option Nat :=
  let comps := componentsOf edges
  let best := (comps.map List.length).foldl max 0
  (edges.find? (fun e => comps.any (fun c => c.contains e.c1 && c.length == best))).map (·.row)

/-- The chosen row and r, or none when no row has a nonzero in the window (R224, R225, R226, R231). -/
def chooseRow (m : SolveDims) (st : Solver) (i hi : Nat) : Option (Nat × Nat) :=
  let others := windowRows m st i hi false
  let cand := if others = [] then windowRows m st i hi true else others
  match (cand.map (·.2)).min? with
  | none => none
  | some r =>
    let row := if r = 2 ∧ others ≠ [] then graphChoice (edgesOf st others i hi)
      else (cand.find? (fun q => q.2 == r)).map (·.1)
    row.map (fun k => (k, r))

/-- Swap the chosen row into position i, in A, X and the labels (R227). -/
def Solver.swapRows (st : Solver) (i k : Nat) : Solver :=
  { st with a := swapAt st.a i k, x := swapAt st.x i k, rowD := swapAt st.rowD i k }

/-- `swapcols(j1, j2)`: exchange two columns in every row of A and of X, and in c (R220). -/
def Solver.swapCols (st : Solver) (j1 j2 : Nat) : Solver :=
  { st with
    a := st.a.map (fun row => swapAt row j1 j2)
    x := st.x.map (fun row => swapAt row j1 j2)
    permC := swapAt st.permC j1 j2 }

/-- The two-pointer exchange of R228, from `left` and `right`; it ends within right - left steps. -/
def placeRest (i : Nat) : Nat → Solver → Nat → Nat → Solver
  | 0, st, _, _ => st
  | fuel + 1, st, left, right =>
    if right ≤ left then st
    else if entryOf st.a i left = 0 then placeRest i fuel st (left + 1) right
    else if entryOf st.a i right ≠ 0 then placeRest i fuel st left (right - 1)
    else placeRest i fuel (st.swapCols left right) (left + 1) (right - 1)

/-- Column placement: one nonzero of row i to column i, the others to the right end of the window (R228). -/
def placeColumns (st : Solver) (i hi : Nat) : Solver :=
  let st1 :=
    match (List.range' i (hi - i)).find? (fun j => entryOf st.a i j != 0) with
    | none => st
    | some j1 => if j1 = i then st else st.swapCols i j1
  placeRest i (hi - i) st1 (i + 1) (hi - 1)

/-- Eliminate column i of the rows after i, in A and D (R229). -/
def eliminateBelow (b : Build) (st : Solver) (i : Nat) : Solver :=
  (List.range' (i + 1) (st.a.length - (i + 1))).foldl (fun st k =>
    if entryOf st.a k i = 0 then st
    else st.addScaled b k i (gfDiv b (entryOf st.a k i) (entryOf st.a i i))) st

/-- Phase 1 (R223 to R231): none when it fails, else the state and i at its end, where i + u = L. It ends within L steps,
which `fuel` counts (R230; assumption log 16). -/
def phase1 (b : Build) (m : SolveDims) : Nat → Solver → Nat → Nat → Option (Solver × Nat)
  | 0, st, i, _ => some (st, i)
  | fuel + 1, st, i, u =>
    if i + u = m.l then some (st, i)
    else
      match chooseRow m st i (m.l - u) with
      | none => none
      | some (k, r) =>
        phase1 b m fuel (eliminateBelow b (placeColumns (st.swapRows i k) i (m.l - u)) i) (i + 1) (u + r - 1)

/-- Divide row t of A and its right-hand side by the pivot A[t][t] (R232). -/
def Solver.normalizeRow (b : Build) (st : Solver) (t : Nat) : Solver :=
  (st.setRow t (divBytes b (st.a.getD t []) (entryOf st.a t t))).setRhs t (divBytes b (st.rhs t) (entryOf st.a t t))

/-- Clear column t of the rows [i, M) but row t, in A and D (R232). -/
def clearColumn (b : Build) (i t : Nat) (st : Solver) : Solver :=
  (List.range' i (st.a.length - i)).foldl (fun st k =>
    if k = t ∨ entryOf st.a k t = 0 then st else st.addScaled b k t (entryOf st.a k t)) st

/-- Phase 2 over the columns `ts` = t, t + 1, ..., L - 1: none when a column has no pivot (R232). -/
def phase2 (b : Build) (i : Nat) : List Nat → Solver → Option Solver
  | [], st => some st
  | t :: ts, st =>
    match (List.range' t (st.a.length - t)).find? (fun k => entryOf st.a k t != 0) with
    | none => none
    | some p =>
      phase2 b i ts (clearColumn b i t
        (Solver.normalizeRow b { st with a := swapAt st.a t p, rowD := swapAt st.rowD t p } t))

/-- The exclusive or of `coeff_j · row_j` over the pairs of two lists, on rows of n bytes. -/
def combine (b : Build) (n : Nat) : List Byte → List (List Byte) → List Byte
  | [], _ => zeroBytes n
  | _ :: _, [] => zeroBytes n
  | c :: cs, r :: rs => axpyBytes b (combine b n cs rs) c r

/-- Phase 3: multiply the first i rows of A and of D by the i×i block of X, from copies taken before (R233). -/
def phase3 (b : Build) (m : SolveDims) (i : Nat) (st : Solver) : Solver :=
  let ac := (List.range i).map (fun k => st.a.getD k [])
  let dc := (List.range i).map st.rhs
  (List.range i).foldl (fun cur k =>
    let coeffs := (st.x.getD k []).take i
    (cur.setRow k (combine b m.l coeffs ac)).setRhs k (combine b m.t coeffs dc)) st

/-- `D[d[k]] ^= A[k][j]·D[d[j]]; A[k][j] <- 0` where A[k][j] is nonzero (R234, R235). -/
def foldEntry (b : Build) (k : Nat) (st : Solver) (j : Nat) : Solver :=
  if entryOf st.a k j = 0 then st
  else
    (st.setRhs k (axpyBytes b (st.rhs k) (entryOf st.a k j) (st.rhs j))).setRow k ((st.a.getD k []).set j 0)

/-- Phase 4: zero the upper-right block of the first i rows by folding it into D (R234). -/
def phase4 (b : Build) (m : SolveDims) (i : Nat) (st : Solver) : Solver :=
  (List.range i).foldl (fun st k => (List.range' i (m.l - i)).foldl (foldEntry b k) st) st

/-- One row of phase 5: substitute the rows above it, then divide by its diagonal entry (R235). -/
def backRow (b : Build) (st : Solver) (k : Nat) : Solver :=
  let st1 := (List.range k).foldl (foldEntry b k) st
  (st1.setRhs k (divBytes b (st1.rhs k) (entryOf st1.a k k))).setRow k ((st1.a.getD k []).set k 1)

/-- Phase 5: the top-left block of A becomes the identity (R235). -/
def phase5 (b : Build) (i : Nat) (st : Solver) : Solver := (List.range i).foldl (backRow b) st

/-- Output: for s in [0, L), SYM_C row c[s] gets D[d[s]] (R236). -/
def solverOutput (m : SolveDims) (st : Solver) : List (Nat × Symbol) :=
  (List.range m.l).map (fun s => (st.permC.getD s 0, st.rhs s))

/-- The solver: rules R221 to R236 on the rows of A and D. It answers the symbols it writes into SYM_C, with their rows,
or the failure of phase 1 or 2. -/
def solve (b : Build) (m : SolveDims) (a : List Row) (d : List Symbol) : Except FailCode (List (Nat × Symbol)) :=
  match phase1 b m m.l (Solver.init m.l a d) 0 m.p with
  | none => .error .decodingFailurePh1
  | some (st1, i) =>
    match phase2 b i (List.range' i (m.l - i)) st1 with
    | none => .error .decodingFailurePh2
    | some st2 => .ok (solverOutput m (phase5 b i (phase4 b m i (phase3 b m i st2))))

end Sys2Proof.Machine
end

