-- ==== Sys2Proof/Machine/BlockCmds.lean ====
section
/-! DEFINITION. PI_SOLVE and the block commands (spec/44_pi_solver.md R240 to R246, 45_block_codec.md R270 to R280).
BLK_ENCODE and BLK_DECODE write their system into MAT_A and SYM_D before they solve it; all of it is scratch that holds no
value afterwards (R246), so the model hands the system to the solver and clears the scratch (assumption log 15). -/

namespace Sys2Proof.Machine

/-- S, H, P, L and T of the configured block, from the CFG registers (10_state.md R34). -/
def State.solveDims (s : State) : SolveDims :=
  { s := s.cfg.s.toNat, h := s.cfg.h.toNat, p := s.cfg.p.toNat, l := s.cfg.l.toNat, t := s.symLen }

/-- What every solving command does before the solve: C_VALID <- 0, M_ROWS <- M (44_pi_solver.md R240). -/
def State.beginSolve (s : State) (m : Nat) : State := (s.setCValid false).setMRows m

/-- A solve's successful end: the scratch holds no value, SYM_C holds the solution, C_VALID <- 1 (44_pi_solver.md R236,
R240, R246). -/
def State.endSolve (s : State) (m : Nat) (c : List (Nat × Symbol)) : State :=
  ((s.clearScratch m).writeSymRows .symC c).setCValid true

/-- Solve the system A · C = D of `m` rows and go on with the state that holds the solution; a failed solve clears the
scratch and leaves SYM_C unchanged (44_pi_solver.md R240, R245, R246). -/
def solveThen (s : State) (m : Nat) (a : List Row) (d : List Symbol) (k : State → Out) : Out :=
  match solve s.build s.solveDims a d with
  | .error c => failWith (s.clearScratch m) c
  | .ok c => k (s.endSolve m c)

/-- PI_SOLVE: solve MAT_A · C = SYM_D of M = ARG0 rows (44_pi_solver.md R240). -/
def execPiSolve (s : State) : Out :=
  needConfig s <|
    if s.arg 0 < s.cfg.l.toNat ∨ s.build.mMax < s.arg 0 then failWith s .range
    else
      orNoValue (s.readMatrix 0 (s.arg 0)) fun a =>
      orNoValue (s.readSymRows .symD (List.range (s.arg 0))) fun d =>
      solveThen (s.beginSolve (s.arg 0)) (s.arg 0) a d finish

/-- The right-hand side of the encoding system: S + H zero rows, the K source symbols, K' - K zero rows (45_block_codec.md
R270). -/
def encodeRhs (c : BlockParams) (src : List Symbol) : List Symbol :=
  List.replicate (c.s.toNat + c.h.toNat) (zeroBytes c.t.toNat) ++ src ++
    List.replicate (c.kp.toNat - c.k.toNat) (zeroBytes c.t.toNat)

/-- BLK_ENCODE: solve the encoding system of SYM_SRC (45_block_codec.md R274). -/
def execBlkEncode (s : State) : Out :=
  needConfig s <|
    orNoValue (s.readSymRows .symSrc (List.range s.cfg.k.toNat)) fun src =>
    solveThen (s.beginSolve s.cfg.l.toNat) s.cfg.l.toNat (constraintMatrix s.build s.cfg) (encodeRhs s.cfg src) finish

/-- BLK_SYMBOL: SYM_OUT <- the encoding symbol with ESI = ARG0 (45_block_codec.md R276). -/
def execBlkSymbol (s : State) : Out :=
  needConfig s <|
    if 2 ^ 24 ≤ s.arg 0 then failWith s .invalidParameters
    else if s.arg 0 < s.cfg.k.toNat then
      orNoValue (s.readSymRow .symSrc (s.arg 0)) fun v => finish (s.writeSymRow .symOut 0 v)
    else if s.status.cValid then
      orNoValue (s.enc (isiOf s.cfg (s.arg 0))) fun v => finish (s.writeSymRow .symOut 0 v)
    else failWith s .notSolved

/-- `first(e)`: the lowest q with RX_ESI[q] = e (45_block_codec.md R280). -/
def firstOf (esis : List Nat) (e : Nat) : Option Nat := esis.findIdx? (· == e)

/-- `missing`: the e in [0, K) that were not received, rising (R280). -/
def missingOf (k : Nat) (esis : List Nat) : List Nat := (List.range k).filter (fun e => !esis.contains e)

/-- `repairs`: the q with RX_ESI[q] >= K that are the first of their ESI, rising (R280). -/
def repairsOf (k : Nat) (esis : List Nat) : List Nat :=
  (List.range esis.length).filter (fun q => k ≤ esis.getD q 0 && firstOf esis (esis.getD q 0) == some q)

/-- The SYM_RX rows of the received source symbols, in the order of their ESIs in [0, K) (R280). -/
def presentRows (k : Nat) (esis : List Nat) : List (Nat × Nat) :=
  (List.range k).filterMap (fun e => (firstOf esis e).map (fun q => (e, q)))

/-- Replace the rows at the given places of a list. -/
def setAll {α : Type} : List (Nat × α) → List α → List α
  | [], l => l
  | (n, v) :: rest, l => setAll rest (l.set n v)

/-- The matrix of the augmented system: the constraint matrix with the row of each missing symbol replaced by the pattern
of its repair symbol, and the patterns of the further repairs as overhead rows (R280). -/
def decodeMatrix (b : Build) (c : BlockParams) (esis missing repairs : List Nat) : List Row :=
  let pats := repairs.map (fun q => patternOf b c (isiOf c (esis.getD q 0)))
  let rows := missing.map (fun e => c.s.toNat + c.h.toNat + e)
  setAll (rows.zip pats) (constraintMatrix b c) ++ pats.drop missing.length

/-- The right-hand side of the augmented system: zero rows, then each received source symbol in its row, each missing
one's repair symbol in its row, zero padding rows, and the further repair symbols as overhead rows (R280). -/
def decodeRhs (c : BlockParams) (missing : List Nat) (present : List (Nat × Symbol)) (repairs : List Symbol) :
    List Symbol :=
  let base := List.replicate (c.s.toNat + c.h.toNat + c.kp.toNat) (zeroBytes c.t.toNat)
  let off := fun (q : Nat × Symbol) => (c.s.toNat + c.h.toNat + q.1, q.2)
  setAll ((missing.zip repairs).map off) (setAll (present.map off) base) ++ repairs.drop missing.length

/-- The recovered symbols enc(e) of the missing e, with their rows, or none if a byte they need holds no value (R280). -/
def State.recover (s : State) : List Nat → Option (List (Nat × Symbol))
  | [] => some []
  | e :: es =>
    match s.enc e with
    | none => none
    | some v => (State.recover s es).map ((e, v) :: ·)

/-- The full path of BLK_DECODE, once the received symbols are read (R280). -/
def decodeFull (s : State) (esis missing repairs : List Nat) (present : List (Nat × Symbol)) (rep : List Symbol) : Out :=
  let m := s.cfg.l.toNat + (repairs.length - missing.length)
  solveThen (s.setMRows m) m (decodeMatrix s.build s.cfg esis missing repairs) (decodeRhs s.cfg missing present rep)
    fun t =>
      orNoValue (t.recover missing) fun found =>
      finish ((((t.writeSymRows .symSrc found).writeSymRows .symSrc present).setRes 0 (word missing.length)).setRes 1
        (word m))

/-- BLK_DECODE: reconstruct the source block from the n = ARG0 received symbols (R280). -/
def execBlkDecode (s : State) : Out :=
  needConfig s <|
    if s.build.rxMax < s.arg 0 then failWith s .range
    else
      orNoValue (s.readEsis 0 (s.arg 0)) fun esis =>
      if esis.any (fun e => 2 ^ 24 ≤ e) then failWith s .invalidParameters
      else
        let s1 := s.setCValid false
        let missing := missingOf s.cfg.k.toNat esis
        let repairs := repairsOf s.cfg.k.toNat esis
        let slots := presentRows s.cfg.k.toNat esis
        if missing = [] then
          orNoValue (s.readSymRows .symRx (slots.map (·.2))) fun rx =>
          finish (((s1.writeSymRows .symSrc ((slots.map (·.1)).zip rx)).setRes 0 0).setRes 1 0)
        else if repairs.length < missing.length then failWith s1 .decodingFailureInsufficient
        else
          orNoValue (s.readSymRows .symRx (slots.map (·.2))) fun rx =>
          orNoValue (s.readSymRows .symRx repairs) fun rep =>
          decodeFull s1 esis missing repairs ((slots.map (·.1)).zip rx) rep

end Sys2Proof.Machine
end

