-- ==== Sys2Proof/Machine/ScalarCmds.lean ====
section
/-! DEFINITION. NOP and the GF(256) scalar commands (spec/60_exceptions.md R310, 40_gf256.md R110 to R115). -/

namespace Sys2Proof.Machine

/-- NOP: no effect besides completion (60_exceptions.md R310). -/
def execNop (s : State) : Out := finish s

/-- GF_ADD: RES0 <- u ⊕ v (R110). -/
def execGfAdd (u v : Byte) (s : State) : Out := finish (s.setRes 0 (zext32 (gfAdd u v)))

/-- GF_SUB: RES0 <- u ⊕ v (R111). -/
def execGfSub (u v : Byte) (s : State) : Out := finish (s.setRes 0 (zext32 (gfSub u v)))

/-- GF_MUL: RES0 <- gf_mul(u, v) (R112). -/
def execGfMul (u v : Byte) (s : State) : Out := finish (s.setRes 0 (zext32 (gfMul s.build u v)))

/-- GF_DIV: DOMAIN for v = 0 and every u, else RES0 <- gf_div(u, v) (R113). -/
def execGfDiv (u v : Byte) (s : State) : Out :=
  if v = 0 then failWith s .domain else finish (s.setRes 0 (zext32 (gfDiv s.build u v)))

/-- GF_EXP: DOMAIN for an index of 510 or 511, else RES0 <- EXP_ROM[i] (R114). -/
def execGfExp (idx : BitVec 9) (s : State) : Out :=
  if 510 ≤ idx.toNat then failWith s .domain else finish (s.setRes 0 (zext32 (expEntry s.build idx.toNat)))

/-- GF_LOG: DOMAIN for x = 0, else RES0 <- gf_log(x) (R115). -/
def execGfLog (x : Byte) (s : State) : Out :=
  if x = 0 then failWith s .domain else finish (s.setRes 0 (zext32 (gfLog s.build x)))

end Sys2Proof.Machine
end

