-- ==== Sys2Proof/Machine/TableCmds.lean ====
section
/-! DEFINITION. The table commands and the block configuration (spec/41_tables.md R145 to R152). -/

namespace Sys2Proof.Machine

/-- RES0 to RES3 <- four results. -/
def State.setRes4 (s : State) (r0 r1 r2 r3 : Nat) : State :=
  (((s.setRes 0 (word r0)).setRes 1 (word r1)).setRes 2 (word r2)).setRes 3 (word r3)

/-- SIT_CEIL: RES0 <- sit_ceil(ARG0), or INVALID_PARAMETERS (R145). -/
def execSitCeil (s : State) : Out :=
  if s.arg 0 = 0 then failWith s .invalidParameters
  else
    match sitCeil s.build.sit (s.arg 0) with
    | none => failWith s .invalidParameters
    | some kp => finish (s.setRes 0 (word kp))

/-- SIT_LOOKUP: RES0 to RES3 <- (J, S, H, W) of the row of ARG0, or INVALID_PARAMETERS on a miss (R146). -/
def execSitLookup (s : State) : Out :=
  match sitLookup s.build.sit (s.arg 0) with
  | none => failWith s .invalidParameters
  | some r => finish (s.setRes4 r.j r.s r.h r.w)

/-- PARTITION: RES0 to RES3 <- (IS, IL, JS, JL) of partition(ARG0, ARG1), or DOMAIN for ARG1 = 0 (R147). -/
def execPartition (s : State) : Out :=
  if s.arg 1 = 0 then failWith s .domain
  else
    match partitionOf (s.arg 0) (s.arg 1) with
    | (is, il, js, jl) => finish (s.setRes4 is il js jl)

/-- RAND: RES0 <- Rand(ARG0, ARG1, ARG2), or DOMAIN for ARG1 >= 256 or ARG2 = 0 (R149). -/
def execRand (s : State) : Out :=
  if 256 ≤ s.arg 1 ∨ s.arg 2 = 0 then failWith s .domain
  else finish (s.setRes 0 (word (randOf s.build (s.arg 0) (s.arg 1) (s.arg 2))))

/-- DEG: RES0 <- Deg(ARG0, ARG1), or DOMAIN for ARG0 >= 2^20 or ARG1 < 3 (R151). -/
def execDeg (s : State) : Out :=
  if 2 ^ 20 ≤ s.arg 0 ∨ s.arg 1 < 3 then failWith s .domain
  else finish (s.setRes 0 (word (degOf s.build (s.arg 0) (s.arg 1))))

/-- The table row that BLK_CONFIG finds for (K, T), or none when one of its checks fails (R152). -/
def configRow (b : Build) (k t : Nat) : Option SitRow :=
  if k = 0 ∨ b.kMax < k ∨ t = 0 ∨ b.tMax < t then none
  else
    match sitCeil b.sit k with
    | none => none
    | some kp =>
      match sitLookup b.sit kp with
      | none => none
      | some r => if rowAdmissible r ∧ r.kp + r.s + r.h ≤ b.lMax then some r else none

/-- BLK_CONFIG: clear CFG_VALID and C_VALID, then validate (K, T) = (ARG0, ARG1) and write the CFG registers, or fail
with INVALID_PARAMETERS, the CFG registers keeping their old values (R152). -/
def execBlkConfig (s : State) : Out :=
  let s1 := (s.setCfgValid false).setCValid false
  match configRow s.build (s.arg 0) (s.arg 1) with
  | none => failWith s1 .invalidParameters
  | some r => finish (State.setCfgValid { s1 with cfg := blockParamsOf (s.arg 0) (s.arg 1) r } true)

end Sys2Proof.Machine
end

