-- ==== Sys2Proof/Machine/Operands.lean ====
section
/-! DEFINITION. The operand forms: bank codes and rows of the vector commands (spec/10_state.md R44, 40_gf256.md R120). -/

namespace Sys2Proof.Machine

/-- The symbol bank that a bank code names; the codes 5 to 15 are reserved (10_state.md R44). DEDUCED: as a destination, the
code 3 writes SYM_RX, as 40_gf256.md R120 and vector V29e of 95_test_vectors.md have it, against the words "Only the host
writes them" of 10_state.md R41 (assumption log 26). -/
def bankOf (c : BankCode) : Option Region :=
  match c with
  | 0#4 => some .symD
  | 1#4 => some .symC
  | 2#4 => some .symSrc
  | 3#4 => some .symRx
  | 4#4 => some .symOut
  | _ => none

/-- rows(bank): M_MAX, L_MAX, K_MAX, RX_MAX and 1 (40_gf256.md R120); the other regions are no symbol banks. -/
def bankRows (b : Build) : Region → Nat
  | .symD => b.mMax
  | .symC => b.lMax
  | .symSrc => b.kMax
  | .symRx => b.rxMax
  | .symOut => 1
  | .permC => 0
  | .rowD => 0
  | .rxEsi => 0
  | .matA => 0
  | .matX => 0

/-- The common checks of R120 for a command that uses DB only: the bank code, CFG_VALID, the row; the answer is the
address of the destination symbol. -/
def dstOperand (db : BankCode) (s : State) : Except FailCode Nat :=
  match bankOf db with
  | none => .error .illegalCommand
  | some rd =>
    if !s.status.cfgValid then .error .notConfigured
    else if bankRows s.build rd ≤ s.arg 0 then .error .range
    else .ok (symRow s.build rd (s.arg 0))

/-- The common checks of R120 for a command that uses DB and SB, in the order of R87 and R120; the answer is the addresses
of the destination and the source symbol. -/
def dstSrcOperands (db sb : BankCode) (s : State) : Except FailCode (Nat × Nat) :=
  match bankOf db, bankOf sb with
  | some rd, some rs =>
    if !s.status.cfgValid then .error .notConfigured
    else if bankRows s.build rd ≤ s.arg 0 then .error .range
    else if bankRows s.build rs ≤ s.arg 1 then .error .range
    else .ok (symRow s.build rd (s.arg 0), symRow s.build rs (s.arg 1))
  | none, _ => .error .illegalCommand
  | some _, none => .error .illegalCommand

end Sys2Proof.Machine
end

