-- ==== Sys2Proof/Machine/VectorCmds.lean ====
section
/-! DEFINITION. The symbol vector commands (spec/40_gf256.md R120 to R125). Every operand byte is read before the
destination is written, so a destination that is also the source is well defined (R120). -/

namespace Sys2Proof.Machine

/-- VXOR: dst ^= src (R121). -/
def execVxor (db sb : BankCode) (s : State) : Out :=
  match dstSrcOperands db sb s with
  | .error c => failWith s c
  | .ok (dst, src) =>
    orNoValue (s.readSymbol dst) fun x =>
    orNoValue (s.readSymbol src) fun y =>
    finish (s.writeSymbol dst (xorBytes x y))

/-- VSCALE: dst = beta·dst (R122). -/
def execVscale (db : BankCode) (beta : Byte) (s : State) : Out :=
  match dstOperand db s with
  | .error c => failWith s c
  | .ok dst =>
    orNoValue (s.readSymbol dst) fun x =>
    finish (s.writeSymbol dst (scaleBytes s.build beta x))

/-- VAXPY: dst ^= beta·src (R123). -/
def execVaxpy (db sb : BankCode) (beta : Byte) (s : State) : Out :=
  match dstSrcOperands db sb s with
  | .error c => failWith s c
  | .ok (dst, src) =>
    orNoValue (s.readSymbol dst) fun x =>
    orNoValue (s.readSymbol src) fun y =>
    finish (s.writeSymbol dst (axpyBytes s.build x beta y))

/-- VCOPY: dst = src; the destination is not read (R124). -/
def execVcopy (db sb : BankCode) (s : State) : Out :=
  match dstSrcOperands db sb s with
  | .error c => failWith s c
  | .ok (dst, src) =>
    orNoValue (s.readSymbol src) fun y =>
    finish (s.writeSymbol dst y)

/-- VZERO: dst = 0; the destination is not read (R125). -/
def execVzero (db : BankCode) (s : State) : Out :=
  match dstOperand db s with
  | .error c => failWith s c
  | .ok dst => finish (s.writeSymbol dst (zeroBytes s.symLen))

end Sys2Proof.Machine
end

