-- ==== Sys2Proof/Machine/Dispatch.lean ====
section
/-! DEFINITION. The meaning of every command: one arm per constructor of Instr. -/

namespace Sys2Proof.Machine

def exec (i : Instr) (s : State) : Host.Outcome State Fault Refusal :=
  match i with
  | .nop => Sys2Proof.Machine.execNop s
  | .gfAdd u v => Sys2Proof.Machine.execGfAdd u v s
  | .gfSub u v => Sys2Proof.Machine.execGfSub u v s
  | .gfMul u v => Sys2Proof.Machine.execGfMul u v s
  | .gfDiv u v => Sys2Proof.Machine.execGfDiv u v s
  | .gfExp idx => Sys2Proof.Machine.execGfExp idx s
  | .gfLog x => Sys2Proof.Machine.execGfLog x s
  | .vxor db sb => Sys2Proof.Machine.execVxor db sb s
  | .vscale db beta => Sys2Proof.Machine.execVscale db beta s
  | .vaxpy db sb beta => Sys2Proof.Machine.execVaxpy db sb beta s
  | .vcopy db sb => Sys2Proof.Machine.execVcopy db sb s
  | .vzero db => Sys2Proof.Machine.execVzero db s
  | .sitCeil => Sys2Proof.Machine.execSitCeil s
  | .sitLookup => Sys2Proof.Machine.execSitLookup s
  | .partition => Sys2Proof.Machine.execPartition s
  | .rand => Sys2Proof.Machine.execRand s
  | .deg => Sys2Proof.Machine.execDeg s
  | .blkConfig => Sys2Proof.Machine.execBlkConfig s
  | .tuple => Sys2Proof.Machine.execTuple s
  | .buildA => Sys2Proof.Machine.execBuildA s
  | .rowPattern => Sys2Proof.Machine.execRowPattern s
  | .ltEnc => Sys2Proof.Machine.execLtEnc s
  | .piSolve => Sys2Proof.Machine.execPiSolve s
  | .blkEncode => Sys2Proof.Machine.execBlkEncode s
  | .blkSymbol => Sys2Proof.Machine.execBlkSymbol s
  | .blkDecode => Sys2Proof.Machine.execBlkDecode s

end Sys2Proof.Machine
end

