-- ==== Sys2Proof/Machine/HostBus.lean ====
section
/-! DEFINITION. What the host can do to RQCORE: accesses to the register file and the banks through the host window, with
their widths, alignments, busy gate and side effects (spec/10_state.md R21 to R29, R50; 20_memory.md R60 to R68), and
reset (70_reset_and_hazards.md R330). A refused access is a host fault event that the bus reports; the machine goes on
(60_exceptions.md R306; assumption log 10). -/

namespace Sys2Proof.Machine

/-- ID, the constant 0x52510007 (10_state.md R21). -/
def idWord : Word := 0x52510007#32

/-- The registers of the register file (10_state.md, the table of section 2). -/
inductive RegSel where
  | id
  | cmd
  | status
  | arg (n : Fin 8)
  | res (n : Fin 8)
  | cfg (n : Fin 12)
  | mRows
  | reserved
deriving DecidableEq, Repr

/-- The register at a 4-byte-aligned offset of the register file. -/
def regAt (off : Nat) : RegSel :=
  if off = 0x000 then .id
  else if off = 0x004 then .cmd
  else if off = 0x008 then .status
  else if h : 0x010 ≤ off ∧ off < 0x030 then .arg ⟨(off - 0x010) / 4, by omega⟩
  else if h : 0x030 ≤ off ∧ off < 0x050 then .res ⟨(off - 0x030) / 4, by omega⟩
  else if h : 0x050 ≤ off ∧ off < 0x080 then .cfg ⟨(off - 0x050) / 4, by omega⟩
  else if off = 0x080 then .mRows
  else .reserved

/-- The CFG registers in the order of their offsets (10_state.md R34). -/
def BlockParams.words (c : BlockParams) : Vector Word 12 :=
  #v[c.k, c.t, c.kp, c.j, c.s, c.h, c.w, c.l, c.p, c.p1, c.u, c.b]

/-- What a host read of a register returns: CMD and the reserved offsets read 0 (R22, R50). -/
def State.readReg (s : State) : RegSel → Word
  | .id => idWord
  | .cmd => 0
  | .status => s.status.toWord
  | .arg n => s.args[n]
  | .res n => s.res[n]
  | .cfg n => s.cfg.words[n]
  | .mRows => s.mRows
  | .reserved => 0

/-- The registers whose reads are admitted while BUSY = 1 (20_memory.md R68). -/
def readableWhileBusy : RegSel → Bool
  | .id => true
  | .cmd => false
  | .status => true
  | .arg _ => false
  | .res _ => true
  | .cfg _ => true
  | .mRows => true
  | .reserved => false

/-- What a host access of some width names. -/
inductive Target where
  | reg (r : RegSel)
  | bank (r : Region)
deriving DecidableEq, Repr

/-- A width and alignment that a region admits: words for the word regions, 1, 2, 4 or 8 naturally aligned bytes for the
byte regions (R65). -/
def widthOk (words : Bool) (a n : Nat) : Bool :=
  if words then n == 4 && a % 4 == 0
  else (n == 1 || n == 2 || n == 4 || n == 8) && a % n == 0

/-- The target of an access of n bytes at a host byte address, or none where the bus answers with an error: a byte outside
the populated map, a width not listed, or a misaligned address (R60, R62, R65). -/
def accessTarget (b : Build) (a n : Nat) : Option Target :=
  if a < 0x1000 then
    if widthOk true a n then some (.reg (regAt a)) else none
  else
    match Region.all.find? (fun r => r.holds b a n) with
    | none => none
    | some r => if widthOk r.isWords a n then some (.bank r) else none

/-- What a host read of one bank byte finds: the bank's value; where it holds none, the byte that the host stored at the
address, if any (10_state.md R46, 20_memory.md R66; assumption log 12). -/
def State.hostByte (s : State) (a : Nat) : Option Byte := (s.mem.read a).or (s.hostCopy.read a)

/-- The bytes a host read of n bytes returns in an epoch: where it finds none the byte is free (10_state.md R46). -/
def hostBytes (found : Nat → Option Byte) (epoch : Nat) : Nat → Nat → List Byte
  | _, 0 => []
  | a, n + 1 => (found a).getD (Config.freeByte epoch a) :: hostBytes found epoch (a + 1) n

/-- A value of little-endian bytes on the 64-bit host bus (R63). -/
def busValue (bytes : List Byte) : BitVec 64 := BitVec.ofNat 64 (natOfBytes bytes)

/-- A refused read: OVR <- 1, and the bus returns an unspecified value, a new one each time (R68; assumption log 9). -/
def State.refuseRead (s : State) (a n : Nat) : State :=
  { s with
    status := s.status.refuse
    bus := .refusedRead (busValue (hostBytes (fun _ => none) s.freeEpoch a n))
    freeEpoch := s.freeEpoch + 1 }

/-- A refused read of a register: OVR <- 1. Where the register reads as 0 by its own rule (CMD and the reserved offsets;
10_state.md R22, R50) the bus returns that 0; where it is an ARG register the value is free (R68; assumption log 21). -/
def State.refuseReadReg (s : State) (r : RegSel) (a n : Nat) : State :=
  match r with
  | .cmd => { s with status := s.status.refuse, bus := .refusedRead 0 }
  | .reserved => { s with status := s.status.refuse, bus := .refusedRead 0 }
  | .arg _ => s.refuseRead a n
  | .id => s.refuseRead a n
  | .status => s.refuseRead a n
  | .res _ => s.refuseRead a n
  | .cfg _ => s.refuseRead a n
  | .mRows => s.refuseRead a n

/-- A refused write: OVR <- 1 and nothing else (10_state.md R22, 20_memory.md R68). -/
def State.refuseWrite (s : State) : State := { s with status := s.status.refuse, bus := .refusedWrite }

/-- A host read (20_memory.md R62 to R68). -/
def State.hostRead (s : State) (a n : Nat) : State :=
  match accessTarget s.build a n with
  | none => { s with bus := .busError }
  | some (.reg r) =>
    if s.status.busy && !readableWhileBusy r then s.refuseReadReg r a n
    else { s with bus := .data ((s.readReg r).setWidth 64) }
  | some (.bank _) =>
    if s.status.busy then s.refuseRead a n
    else { s with bus := .data (busValue (hostBytes s.hostByte s.freeEpoch a n)) }

/-- A host write to a register: CMD issues or is refused (R22), STATUS is write-one-to-clear at any time (R23, R68), ARGn
stores (R29), the others ignore it (R50); while BUSY = 1 all but STATUS are refused (R68). -/
def State.writeReg (s : State) (r : RegSel) (v : Word) : State :=
  match r with
  | .status => { s with status := s.status.writeOneToClear v, bus := .written }
  | .cmd =>
    if s.status.busy || s.status.err then s.refuseWrite
    else { s.issue v with bus := .written }
  | .arg n => if s.status.busy then s.refuseWrite else { s with args := s.args.set n v, bus := .written }
  | .id => if s.status.busy then s.refuseWrite else { s with bus := .written }
  | .res _ => if s.status.busy then s.refuseWrite else { s with bus := .written }
  | .cfg _ => if s.status.busy then s.refuseWrite else { s with bus := .written }
  | .mRows => if s.status.busy then s.refuseWrite else { s with bus := .written }
  | .reserved => if s.status.busy then s.refuseWrite else { s with bus := .written }

/-- A host write of the low n bytes of v (20_memory.md R62 to R68). A write to a bank only stores its bytes (R66); at the
addresses of PERM_C, ROW_D and MAT_X it stores them in `hostCopy`, because only CORE writes those banks (10_state.md R20,
R37, R43; assumption log 12). -/
def State.hostWrite (s : State) (a n : Nat) (v : BitVec 64) : State :=
  match accessTarget s.build a n with
  | none => { s with bus := .busError }
  | some (.reg r) => s.writeReg r (v.setWidth 32)
  | some (.bank r) =>
    if s.status.busy then s.refuseWrite
    else if r.coreOnly then { s with hostCopy := s.hostCopy.writeBytes a (bytesOfNat n v.toNat), bus := .written }
    else { s with mem := s.mem.writeBytes a (bytesOfNat n v.toNat), bus := .written }

/-- Reset: every register and bank at its reset value, the read-only memories unchanged (R330 to R332); what the host does
next is not the hardware's and stays, and the free bytes of later host reads are new ones (assumption logs 9, 24). -/
def State.afterReset (s : State) : State :=
  { State.reset with build := s.build, host := s.host, freeEpoch := s.freeEpoch + 1 }

end Sys2Proof.Machine
end

