-- ==== Sys2Proof/Machine/Sequencer.lean ====
section
/-! DEFINITION. Who moves next (spec/10_state.md R20, R45; 20_memory.md R69): the host's next event, or the core's turn. -/

namespace Sys2Proof.Machine

/-- CORE's turn: while BUSY = 1, decode the latched command word and execute it to its end (30_encoding.md R87,
10_state.md R45); an illegal word fails with ILLEGAL_COMMAND (R88). While BUSY = 0, CORE is idle (60_exceptions.md R314). -/
def coreTurn (s : State) : Out :=
  if s.status.busy then
    match decode s.cmd with
    | .ok i => exec i s
    | .error _ => failWith s .illegalCommand
  else .next s

/-- One turn: the host's next event, or the core's turn where the host leaves it or has nothing to do (assumption logs 1,
14). -/
def takeTurn (s : State) : Out :=
  match s.host with
  | [] => coreTurn s
  | .coreTurn :: rest => coreTurn { s with host := rest }
  | .read a n :: rest => .next (State.hostRead { s with host := rest } a.toNat n)
  | .write a n v :: rest => .next (State.hostWrite { s with host := rest } a.toNat n v)
  | .reset :: rest => .next (State.afterReset { s with host := rest })

/-- Latch a command word as the CMD write of its issue does, and give the core the next turn. -/
def State.placeCommand (s : State) (c : Word) : State := { s.issue c with host := .coreTurn :: s.host }

end Sys2Proof.Machine
end

