-- ==== Sys2Proof/Machine/Step.lean ====
section
/-! DEFINITION. One step of the machine, and how a command is placed where the next step executes it. -/

namespace Sys2Proof.Machine

/-- One step: one host event or one turn of the core. -/
def step (s : State) : Host.Outcome State Fault Refusal := takeTurn s

/-- The state with the command word of these bits issued, so that the very next step executes it: RQCORE fetches no
instructions (10_state.md R45), so the command stands where its CMD write puts it (R22). -/
def State.withFetchWord (s : State) (nbits w : Nat) : State :=
  match tableWord nbits w with
  | some c => s.placeCommand c
  | none => s

end Sys2Proof.Machine
end

