-- ==== Sys2Proof/Safety.lean ====
section
/-! DEFINITION. What a sound state of RQCORE is: the properties that reset has and that every step should keep, in the
terms the claims use. -/

namespace Sys2Proof.Machine

/-- Every failure code (60_exceptions.md R300). -/
def allFailCodes : List FailCode :=
  [.illegalCommand, .notConfigured, .domain, .range, .notSolved, .invalidParameters, .decodingFailurePh1,
   .decodingFailurePh2, .decodingFailureInsufficient]

/-- STATUS is as the spec allows: ERRCODE is 0x00 exactly while ERR = 0 and a code of R300 while ERR = 1 (10_state.md R23,
R26); a command in progress has neither DONE nor ERR set (R22, R25); C_VALID is never set without CFG_VALID (R28). -/
abbrev StatusOk (f : Status) : Prop :=
  (f.err = false → f.errCode = 0x00#8) ∧
  (f.err = true → f.errCode ∈ allFailCodes.map FailCode.code) ∧
  (f.busy = true → f.done = false ∧ f.err = false) ∧
  (f.cValid = true → f.cfgValid = true)

/-- The CFG registers hold what a successful BLK_CONFIG of some (K, T) writes (41_tables.md R152). -/
def ConfigOk (b : Build) (c : BlockParams) : Prop :=
  ∃ k t r, k < 2 ^ 32 ∧ t < 2 ^ 32 ∧ configRow b k t = some r ∧ c = blockParamsOf k t r

/-- Every listed byte lies in the populated part of a bank that, as `core` says, only CORE writes or the host and the commands
write (20_memory.md R60, R62; 10_state.md R20, R37, R43). -/
def BanksOk (b : Build) (core : Bool) (m : Memory) : Prop :=
  ∀ x ∈ m, ∃ r : Region, r.holds b x.1 1 = true ∧ r.coreOnly = core

/-- A sound state: a legal build, a legal STATUS, CFG registers that BLK_CONFIG wrote while CFG_VALID = 1, and banks in
their canonical form whose bytes all lie in the populated map. PERM_C, ROW_D and MAT_X hold no value (R20, 44_pi_solver.md
R246); what the host stored at their addresses lies there. -/
structure MachineOk (s : State) : Prop where
  build : BuildOk s.build
  status : StatusOk s.status
  config : s.status.cfgValid = true → ConfigOk s.build s.cfg
  canonical : s.mem.wf
  banks : BanksOk s.build false s.mem
  copyCanonical : s.hostCopy.wf
  copyBanks : BanksOk s.build true s.hostCopy

end Sys2Proof.Machine
end

