-- ==== Sys2Proof/Certificates/Slice0/Obligations.lean ====
section
/-! DEFINITION. The statements about RQCORE for the provers. The helpers of `Sys2Proof.Claims` say in the spec's own terms
what a statement needs, without the model's functions wherever the spec gives a formula. -/

namespace Sys2Proof.Claims
open Sys2Proof.Machine

/-- `w[lo + n - 1 : lo]` as a natural (00_scope.md R11). -/
def bits (w : Word) (lo n : Nat) : Nat := w.toNat / 2 ^ lo % 2 ^ n

/-- REG[ARGn] as a natural. -/
def argn (s : State) (n : Fin 8) : Nat := (s.args[n]).toNat

/-- STATUS after a successful completion (10_state.md R45). -/
def doneStatus (f : Status) : Status := { f with busy := false, done := true }

/-- STATUS after a failure with the code (60_exceptions.md R303). -/
def failStatus (f : Status) (code : Byte) : Status :=
  { f with busy := false, done := true, err := true, errCode := code }

/-- The state after a failure that wrote nothing before it. -/
def failState (s : State) (code : Byte) : State := { s with status := failStatus s.status code }

/-- The state after a success that wrote one value to RES0. -/
def res0State (s : State) (v : Word) : State := { s with res := s.res.set 0 v, status := doneStatus s.status }

/-- The state after a success that wrote RES0 to RES3. -/
def res4State (s : State) (r0 r1 r2 r3 : Nat) : State :=
  { s with
    res := (((s.res.set 0 (word r0)).set 1 (word r1)).set 2 (word r2)).set 3 (word r3)
    status := doneStatus s.status }

/-- Format N with this opcode: the word with CMD[31:8] = 0 is the command, any other is refused (R81, R86). -/
def EncodedN (opc : Nat) (i : Instr) : Prop :=
  ∀ w : Word, bits w 0 8 = opc →
    (bits w 8 24 = 0 → decode w = .ok i) ∧ (bits w 8 24 ≠ 0 → ∃ e, decode w = .error e)

/-- Format S2 with this opcode (R82, R86). -/
def EncodedS2 (opc : Nat) (mk : Byte → Byte → Instr) : Prop :=
  ∀ w : Word, bits w 0 8 = opc →
    (bits w 24 8 = 0 → decode w = .ok (mk (BitVec.ofNat 8 (bits w 8 8)) (BitVec.ofNat 8 (bits w 16 8)))) ∧
    (bits w 24 8 ≠ 0 → ∃ e, decode w = .error e)

/-- Format V with this opcode: `zero` are the bits that must be zero, as (lowest bit, count), `banks` the places of the bank
codes that the command uses (R84, R86). -/
def EncodedV (opc : Nat) (zero : List (Nat × Nat)) (banks : List Nat) (mk : Word → Instr) : Prop :=
  ∀ w : Word, bits w 0 8 = opc →
    ((∀ z ∈ zero, bits w z.1 z.2 = 0) → (∀ p ∈ banks, bits w p 4 < 5) → decode w = .ok (mk w)) ∧
    (¬((∀ z ∈ zero, bits w z.1 z.2 = 0) ∧ (∀ p ∈ banks, bits w p 4 < 5)) → ∃ e, decode w = .error e)

/-- The bank code at bit `lo` of a word. -/
def bankAt (w : Word) (lo : Nat) : BankCode := BitVec.ofNat 4 (bits w lo 4)

/-- BETA of a word (R84). -/
def betaAt (w : Word) : Byte := BitVec.ofNat 8 (bits w 16 8)

/-- The value of a byte of the banks; only asked where there is one. -/
def val (m : Memory) (a : Nat) : Byte := (m.read a).getD 0

/-- The n bytes from `a` on all hold a value (10_state.md R46). -/
abbrev Valued (m : Memory) (a n : Nat) : Prop := ∀ k < n, (m.read (a + k)).isSome = true

/-- After: the n bytes from `base` on hold `f`; every other byte of the banks reads as before. -/
def StoresOnly (m m' : Memory) (base n : Nat) (f : Nat → Byte) : Prop :=
  ∀ a, m'.read a = if base ≤ a ∧ a < base + n then some (f (a - base)) else m.read a

/-- The exclusive or of a list of bytes. -/
def xorAll (l : List Byte) : Byte := l.foldr (fun x y => x ^^^ y) 0

/-- A step in which the host makes this access. -/
def HostDoes (s : State) (e : HostEvent) (t : State) : Prop := ∀ rest, s.host = e :: rest → step s = .next { t with host := rest }

/-- It is the core's turn, and `s1` is the state the core finds. -/
def CoreMoves (s s1 : State) : Prop := (s.host = [] ∧ s1 = s) ∨ ∃ rest, s.host = .coreTurn :: rest ∧ s1 = { s with host := rest }

/-- α^n, the n-th power of the generator 0x02 of the field of `poly` (40_gf256.md R100). -/
def alphaPow (poly : Nat) : Nat → Byte
  | 0 => 1
  | n + 1 => gfTimesAlpha poly (alphaPow poly n)

/-- The product of two bytes as polynomials over GF(2), reduced modulo `poly`: bit by bit of `u`, lowest first, for the n
lowest bits (40_gf256.md R100). -/
def polyProduct (poly : Nat) (u : Byte) : Nat → Byte → Byte
  | 0, _ => 0
  | n + 1, v => (if u.getLsbD (7 - n) then v else 0) ^^^ polyProduct poly u n (gfTimesAlpha poly v)

/-- `gf_mul` over the tables, as the rule writes it (40_gf256.md R102). -/
def mulRule (b : Build) (u v : Byte) : Byte :=
  if u = 0 ∨ v = 0 then 0
  else if u = 1 then v
  else if v = 1 then u
  else b.expRom.getD ((b.logRom.getD (u.toNat - 1) 0).toNat + (b.logRom.getD (v.toNat - 1) 0).toNat) 0

/-- `gf_div` over the tables for v nonzero, as the rule writes it (40_gf256.md R103). -/
def divRule (b : Build) (u v : Byte) : Byte :=
  if v = 1 then u
  else if u = 0 then 0
  else b.expRom.getD ((b.logRom.getD (u.toNat - 1) 0).toNat + 255 - (b.logRom.getD (v.toNat - 1) 0).toNat) 0

/-- The command uses SB (30_encoding.md R87). -/
abbrev usesSb (m : String) : Prop := m = "VXOR" ∨ m = "VAXPY" ∨ m = "VCOPY"

/-- The command has format V (30_encoding.md R86). -/
abbrev isVector (m : String) : Prop := m = "VXOR" ∨ m = "VSCALE" ∨ m = "VAXPY" ∨ m = "VCOPY" ∨ m = "VZERO"

/-- A used bank field of the word holds a code 5 to 15 (30_encoding.md R87). -/
abbrev badBank (m : String) (w : Word) : Prop := isVector m ∧ (5 ≤ bits w 8 4 ∨ usesSb m ∧ 5 ≤ bits w 12 4)

/-- The reserved opcodes as the rule lists them (30_encoding.md R88). -/
abbrev reservedOpc (o : Nat) : Prop :=
  (0x07 ≤ o ∧ o ≤ 0x0F) ∨ (0x15 ≤ o ∧ o ≤ 0x1F) ∨ (0x25 ≤ o ∧ o ≤ 0x2F) ∨ (0x35 ≤ o ∧ o ≤ 0x37) ∨
    (0x39 ≤ o ∧ o ≤ 0x3F) ∨ (0x43 ≤ o ∧ o ≤ 0xFF)

/-- M_MAX = L_MAX + RX_MAX (00_scope.md R8). -/
def mMaxOf (b : Build) : Nat := b.lMax + b.rxMax

/-- The bank regions of the host window: base, populated size, and whether the elements are 32-bit words (20_memory.md
R60, R65). -/
def bankMap (b : Build) : List (Nat × Nat × Bool) :=
  [(0x000100000000, 4 * b.lMax, true), (0x000200000000, 4 * mMaxOf b, true), (0x000300000000, 4 * b.rxMax, true),
   (0x100000000000, mMaxOf b * b.lMax, false), (0x200000000000, mMaxOf b * b.lMax, false),
   (0x300000000000, mMaxOf b * b.tMax, false), (0x400000000000, b.lMax * b.tMax, false),
   (0x500000000000, b.kMax * b.tMax, false), (0x600000000000, b.rxMax * b.tMax, false),
   (0x700000000000, b.tMax, false)]

/-- A host access of n bytes at `a` that the map, the widths and the alignments admit (20_memory.md R60, R62, R65). -/
abbrev Admitted (b : Build) (a n : Nat) : Prop :=
  (a + n ≤ 0x1000 ∧ n = 4 ∧ a % 4 = 0) ∨
  ∃ e ∈ bankMap b, e.1 ≤ a ∧ a + n ≤ e.1 + e.2.1 ∧
    (if e.2.2 then n = 4 ∧ a % 4 = 0 else (n = 1 ∨ n = 2 ∨ n = 4 ∨ n = 8) ∧ a % n = 0)

/-- The CFG registers in the order of their offsets (10_state.md R34). -/
def cfgList (c : BlockParams) : List Word := [c.k, c.t, c.kp, c.j, c.s, c.h, c.w, c.l, c.p, c.p1, c.u, c.b]

/-- Reading the register at this offset gives the value and changes nothing but the bus (20_memory.md R66). -/
def Reads (s : State) (off : Nat) (v : Word) : Prop :=
  HostDoes s (.read (BitVec.ofNat 48 off) 4) { s with bus := .data (v.setWidth 64) }

/-- The state after a refused write (20_memory.md R68). -/
def writeRefused (s : State) : State := { s with status := { s.status with ovr := true }, bus := .refusedWrite }

/-- The state after an issue of the word (10_state.md R22); the epoch of the free bytes is the model's own (log 9). -/
def issued (s : State) (w : Word) : State :=
  { s with cmd := w, status := { s.status with busy := true, done := false }, freeEpoch := s.freeEpoch + 1 }

/-- The RES registers that the opcode map gives a command (30_encoding.md R86). -/
def resWritten : Instr → List Nat
  | .gfAdd _ _ | .gfSub _ _ | .gfMul _ _ | .gfDiv _ _ | .gfExp _ | .gfLog _ | .sitCeil | .rand | .deg => [0]
  | .sitLookup | .partition => [0, 1, 2, 3]
  | .tuple => [0, 1, 2, 3, 4, 5]
  | .blkDecode => [0, 1]
  | .nop | .vxor _ _ | .vscale _ _ | .vaxpy _ _ _ | .vcopy _ _ | .vzero _ | .blkConfig | .buildA | .rowPattern
  | .ltEnc | .piSolve | .blkEncode | .blkSymbol => []

/-- The failure codes that a decoded command may raise (60_exceptions.md R300). -/
def raisedBy : Instr → List Byte
  | .nop | .gfAdd _ _ | .gfSub _ _ | .gfMul _ _ => []
  | .gfDiv _ _ | .gfExp _ | .gfLog _ | .partition | .rand | .deg => [0x03]
  | .vxor _ _ | .vscale _ _ | .vaxpy _ _ _ | .vcopy _ _ | .vzero _ | .rowPattern => [0x02, 0x04]
  | .sitCeil | .sitLookup | .blkConfig => [0x10]
  | .tuple | .buildA => [0x02]
  | .ltEnc => [0x02, 0x05]
  | .piSolve => [0x02, 0x04, 0x20, 0x21]
  | .blkEncode => [0x02, 0x20, 0x21]
  | .blkSymbol => [0x02, 0x05, 0x10]
  | .blkDecode => [0x02, 0x04, 0x10, 0x20, 0x21, 0x22]

/-- T = REG[CFG_T]. -/
def tOf (s : State) : Nat := s.cfg.t.toNat
/-- L = REG[CFG_L]. -/
def lOf (s : State) : Nat := s.cfg.l.toNat
/-- K = REG[CFG_K]. -/
def kOf (s : State) : Nat := s.cfg.k.toNat

/-- The address of column 0 of a row of MAT_A, MAT_X (20_memory.md R61). -/
def aRow (s : State) (r : Nat) : Nat := 0x100000000000 + r * s.build.lMax
def xRow (s : State) (r : Nat) : Nat := 0x200000000000 + r * s.build.lMax
/-- The address of byte 0 of a row of SYM_D, SYM_C, SYM_SRC, SYM_RX, SYM_OUT (20_memory.md R61). -/
def dRow (s : State) (r : Nat) : Nat := 0x300000000000 + r * s.build.tMax
def cRow (s : State) (r : Nat) : Nat := 0x400000000000 + r * s.build.tMax
def srcRow (s : State) (r : Nat) : Nat := 0x500000000000 + r * s.build.tMax
def rxRow (s : State) (r : Nat) : Nat := 0x600000000000 + r * s.build.tMax
def outRow : Nat := 0x700000000000

/-- The address of row `row` of the symbol bank with this code (10_state.md R44, 20_memory.md R60, R61). -/
def symAt (s : State) (code row : Nat) : Nat := 0x300000000000 + code * 0x100000000000 + row * s.build.tMax

/-- rows(code) (40_gf256.md R120). -/
def rowsOf (b : Build) (code : Nat) : Nat :=
  if code = 0 then mMaxOf b else if code = 1 then b.lMax else if code = 2 then b.kMax else if code = 3 then b.rxMax else 1

/-- Byte of a symbol bank that a command of the configured block may touch: bytes [0, T) of a row (20_memory.md R67). -/
abbrev InSymbols (s : State) (a : Nat) : Prop :=
  ∃ code < 5, ∃ row < rowsOf s.build code, ∃ k < tOf s, a = symAt s code row + k

/-- Byte of MAT_A that a command of the configured block may touch: columns [0, L) of a row (20_memory.md R67). -/
abbrev InMatrix (s : State) (a : Nat) : Prop := ∃ row < mMaxOf s.build, ∃ c < lOf s, a = aRow s row + c

/-- Byte of RX_ESI. -/
abbrev InEsi (s : State) (a : Nat) : Prop := 0x000300000000 ≤ a ∧ a < 0x000300000000 + 4 * s.build.rxMax

/-- The scratch of a solve of `m` rows (44_pi_solver.md R246). -/
def Scratch (s : State) (m a : Nat) : Prop :=
  (∃ r < m, ∃ c < lOf s, a = aRow s r + c ∨ a = xRow s r + c) ∨
  (∃ r < m, ∃ j < 4, a = 0x000200000000 + 4 * r + j) ∨
  (∃ r < lOf s, ∃ j < 4, a = 0x000100000000 + 4 * r + j) ∨
  (∃ r < m, ∃ k < tOf s, a = dRow s r + k)

/-- The bank codes of a vector command, destination and source (30_encoding.md R84). -/
def vectorBanks : Instr → Option (Nat × Option Nat)
  | .vxor db sb | .vaxpy db sb _ | .vcopy db sb => some (db.toNat, some sb.toNat)
  | .vscale db _ | .vzero db => some (db.toNat, none)
  | _ => none

/-- What BLK_CONFIG requires of (K, T) and the table row it uses (41_tables.md R140, R141, R144, R152). -/
abbrev ConfigRow (b : Build) (k t : Nat) (r : SitRow) : Prop :=
  1 ≤ k ∧ k ≤ b.kMax ∧ 1 ≤ t ∧ t ≤ b.tMax ∧ r ∈ b.sit ∧ k ≤ r.kp ∧ (∀ q ∈ b.sit, k ≤ q.kp → r.kp ≤ q.kp) ∧
  1 ≤ r.s ∧ 2 ≤ r.h ∧ 3 ≤ r.w ∧ r.s ≤ r.w ∧ r.w ≤ r.kp + r.s ∧ r.kp + r.s + r.h ≤ b.lMax

/-- `Rand(y, i, m)` as the rule's form writes it (41_tables.md R148). -/
def randRule (b : Build) (y i m : Nat) : Nat :=
  ((b.v0.getD ((y + i) % 256) 0).toNat ^^^ (b.v1.getD ((y / 2 ^ 8 + i) % 256) 0).toNat ^^^
    (b.v2.getD ((y / 2 ^ 16 + i) % 256) 0).toNat ^^^ (b.v3.getD ((y / 2 ^ 24 + i) % 256) 0).toNat) % m

/-- The y of a tuple; forcing 53591 + 997·J odd adds 1 exactly when J is odd (42_tuple_matrix.md R170). -/
def tupleYRule (j x : Nat) : Nat := (10267 * (j + 1) + (53591 + 997 * j + j % 2) * x) % 2 ^ 32

/-- The first n values of the a1-walk modulo P1 from b1 on (42_tuple_matrix.md R176). -/
def piWalk (p1 a1 b1 n : Nat) : List Nat := (List.range n).map fun j => (b1 + j * a1) % p1

/-- `mt_ones(j)`: the rows that the parameter HDPC_MT gives column j, else the RFC's two rows (42_tuple_matrix.md R183; how
the parameter is held is assumption log 6). -/
def mtRows (b : Build) (h j : Nat) : List Nat :=
  match b.hdpcMt.filter fun e => e.h == h && e.j == j with
  | e :: _ => e.rows
  | [] =>
    let r := randRule b (j + 1) 6 h
    [r, (r + randRule b (j + 1) 7 (h - 1) + 1) % h]

/-- The dot product of a matrix row with one byte of every symbol (00_scope.md R13). -/
def dot (b : Build) (row x : List Byte) : Byte :=
  xorAll ((List.range row.length).map fun j => gfMul b (row.getD j 0) (x.getD j 0))

/-- A · C = D, for the bytes [0, T) of every symbol. -/
abbrev IsSolution (b : Build) (a : List Row) (d c : List Symbol) (t : Nat) : Prop :=
  ∀ r < a.length, ∀ k < t, dot b (a.getD r []) (c.map fun v => v.getD k 0) = (d.getD r []).getD k 0

/-- A system of M rows, L columns and T bytes, with M >= L and P <= L. -/
abbrev Shaped (m : SolveDims) (a : List Row) (d : List Symbol) : Prop :=
  a.length = d.length ∧ m.l ≤ a.length ∧ m.p ≤ m.l ∧ (∀ row ∈ a, row.length = m.l) ∧ ∀ v ∈ d, v.length = m.t

/-- n symbols of T bytes. -/
abbrev Symbols (n t : Nat) (c : List Symbol) : Prop := c.length = n ∧ ∀ v ∈ c, v.length = t

/-- T bytes of the banks from an address on, as a symbol. -/
def symbolAt (m : Memory) (a t : Nat) : Symbol := (List.range t).map fun k => val m (a + k)

/-- MAT_A rows [0, m) by columns [0, L), and SYM_D rows [0, m) by bytes [0, T). -/
def matrixOf (s : State) (m : Nat) : List Row := (List.range m).map fun r => symbolAt s.mem (aRow s r) (lOf s)
def rhsOf (s : State) (m : Nat) : List Symbol := (List.range m).map fun r => symbolAt s.mem (dRow s r) (tOf s)

/-- S, H, P, L and T of the configured block. -/
def dimsOf (s : State) : SolveDims := ⟨s.cfg.s.toNat, s.cfg.h.toNat, s.cfg.p.toNat, lOf s, tOf s⟩

/-- After: the rows of the symbol bank at `base` that `out` lists hold its symbols, the scratch of `m` rows holds no value,
and every other byte of the banks reads as before. -/
def SolvedInto (s : State) (m : Nat) (out : List (Nat × Symbol)) (mem : Memory) : Prop :=
  (∀ q ∈ out, ∀ k < tOf s, mem.read (cRow s q.1 + k) = some (q.2.getD k 0)) ∧
  ∀ a, (∀ q ∈ out, ¬(cRow s q.1 ≤ a ∧ a < cRow s q.1 + tOf s)) →
    (Scratch s m a → mem.read a = none) ∧ (¬Scratch s m a → mem.read a = s.mem.read a)

/-- After: the scratch of `m` rows holds no value, and every other byte of the banks reads as before. -/
def ScratchCleared (s : State) (m : Nat) (mem : Memory) : Prop :=
  ∀ a, (Scratch s m a → mem.read a = none) ∧ (¬Scratch s m a → mem.read a = s.mem.read a)

/-- After: of what the host stored at the addresses of PERM_C, ROW_D and MAT_X, the scratch of `m` rows is forgotten and the
rest is kept (44_pi_solver.md R246; assumption log 12). -/
def CopyCleared (s : State) (m : Nat) (copy : Memory) : Prop :=
  ∀ a, (Scratch s m a → copy.read a = none) ∧ (¬Scratch s m a → copy.read a = s.hostCopy.read a)

/-- The right-hand side of the encoding system of K source symbols (45_block_codec.md R270). -/
def encodeD (s : State) (src : List Symbol) : List Symbol :=
  (List.range (lOf s)).map fun r =>
    if s.cfg.s.toNat + s.cfg.h.toNat ≤ r ∧ r < s.cfg.s.toNat + s.cfg.h.toNat + kOf s then
      src.getD (r - (s.cfg.s.toNat + s.cfg.h.toNat)) []
    else List.replicate (tOf s) 0

/-- `enc(X)` over the symbols of a list instead of SYM_C (43_lt_encoder.md R210). -/
def encOver (s : State) (c : List Symbol) (x : Nat) : Symbol :=
  (List.range (tOf s)).map fun k => xorAll ((indicesOf s.build s.cfg x).map fun n => (c.getD n []).getD k 0)

/-- RX_ESI[q] (20_memory.md R63). -/
def esiAt (s : State) (q : Nat) : Nat :=
  (val s.mem (0x000300000000 + 4 * q)).toNat + 256 * (val s.mem (0x000300000000 + 4 * q + 1)).toNat +
    65536 * (val s.mem (0x000300000000 + 4 * q + 2)).toNat + 16777216 * (val s.mem (0x000300000000 + 4 * q + 3)).toNat

/-- ISI(esi) (45_block_codec.md R271). -/
def isiRule (s : State) (esi : Nat) : Nat := if esi < kOf s then esi else esi + (s.cfg.kp.toNat - kOf s)

/-- q = first(e) among n received symbols (45_block_codec.md R280). -/
abbrev IsFirst (s : State) (n e q : Nat) : Prop := q < n ∧ esiAt s q = e ∧ ∀ p < q, esiAt s p ≠ e

/-- e was received among the n symbols. -/
def received (s : State) (n e : Nat) : Bool := (List.range n).any fun q => esiAt s q == e

/-- `missing`: the e in [0, K) that were not received, rising (45_block_codec.md R280). -/
def missingRule (s : State) (n : Nat) : List Nat := (List.range (kOf s)).filter fun e => !received s n e

/-- `repairs`: the q whose ESI is >= K and stands at no lower q, rising (45_block_codec.md R280). -/
def repairsRule (s : State) (n : Nat) : List Nat :=
  (List.range n).filter fun q => decide (kOf s ≤ esiAt s q) && !received s q (esiAt s q)

/-- The rows and right-hand sides of the augmented system that BLK_DECODE solves, as its rule builds them
(45_block_codec.md R280): `first e` is the received place of a present e. -/
def decodeRow (s : State) (missing repairs : List Nat) (r : Nat) : Row :=
  let sh := s.cfg.s.toNat + s.cfg.h.toNat
  if lOf s ≤ r then patternOf s.build s.cfg (isiRule s (esiAt s (repairs.getD (missing.length + (r - lOf s)) 0)))
  else
    match missing.findIdx? (fun e => sh + e == r) with
    | some j => patternOf s.build s.cfg (isiRule s (esiAt s (repairs.getD j 0)))
    | none => (constraintMatrix s.build s.cfg).getD r []
def decodeSym (s : State) (n : Nat) (missing repairs : List Nat) (r : Nat) : Symbol :=
  let sh := s.cfg.s.toNat + s.cfg.h.toNat
  let rx := fun q => symbolAt s.mem (rxRow s q) (tOf s)
  if lOf s ≤ r then rx (repairs.getD (missing.length + (r - lOf s)) 0)
  else
    match missing.findIdx? (fun e => sh + e == r) with
    | some j => rx (repairs.getD j 0)
    | none =>
      match (List.range n).find? (fun q => decide (esiAt s q < kOf s) && sh + esiAt s q == r) with
      | some q => rx q
      | none => List.replicate (tOf s) 0

/-- Every byte that BLK_DECODE of n symbols reads holds a value: RX_ESI [0, n) and the SYM_RX rows [0, n). -/
abbrev RxValued (s : State) (n : Nat) : Prop :=
  Valued s.mem 0x000300000000 (4 * n) ∧ ∀ q < n, Valued s.mem (rxRow s q) (tOf s)

/-- The window [i, hi) of row k holds this many nonzeros (44_pi_solver.md R223). -/
def nzOf (st : Solver) (k i hi : Nat) : Nat :=
  ((List.range' i (hi - i)).filter fun j => entryOf st.a k j != 0).length

/-- A row of [i, M) with a nonzero in the window that is, or is not, an HDPC row (44_pi_solver.md R222, R224). -/
abbrev Candidate (m : SolveDims) (st : Solver) (i hi : Nat) (hdpc : Prop) (k : Nat) : Prop :=
  i ≤ k ∧ k < st.a.length ∧ 1 ≤ nzOf st k i hi ∧
    ((m.s ≤ st.rowD.getD k 0 ∧ st.rowD.getD k 0 < m.s + m.h) ↔ hdpc)

/-- Two columns of the window are joined by an edge row (44_pi_solver.md R226). -/
def JoinedBy (m : SolveDims) (st : Solver) (i hi x y : Nat) : Prop :=
  ∃ k, Candidate m st i hi False k ∧ nzOf st k i hi = 2 ∧ i ≤ x ∧ x < hi ∧ i ≤ y ∧ y < hi ∧
    entryOf st.a k x ≠ 0 ∧ entryOf st.a k y ≠ 0

/-- The size of the connected component of a column (44_pi_solver.md R226). -/
noncomputable def componentSize (m : SolveDims) (st : Solver) (i hi x : Nat) : Nat :=
  Set.ncard { y | Relation.ReflTransGen (JoinedBy m st i hi) x y }

/-- Row k is an edge row whose edge lies in a component of maximum size (44_pi_solver.md R226). -/
def MaxEdge (m : SolveDims) (st : Solver) (i hi k : Nat) : Prop :=
  Candidate m st i hi False k ∧ nzOf st k i hi = 2 ∧
  ∀ x, i ≤ x → x < hi → entryOf st.a k x ≠ 0 →
    ∀ y, JoinedBy m st i hi y y → componentSize m st i hi y ≤ componentSize m st i hi x

end Sys2Proof.Claims

open Sys2Proof Sys2Proof.Machine Sys2Proof.Claims

/-! ### Command words and their decoding -/

/-- Decoding the encoding of a command gives the command; a bank code 5 to 15 in a used field is refused (R86, R88). -/
def Obligations.DecodeEncodeRoundTrip : Prop :=
  ∀ i : Instr, (i.wellFormed = true → decode (encode i) = .ok i) ∧
    (i.wellFormed = false → ∃ e, decode (encode i) = .error e)

/-- The decoding procedure at the core's turn, and the illegal words with the reserved opcodes as the rule lists them; a
failure changes nothing but STATUS (30_encoding.md R87, R88). -/
def Obligations.DecodingProcedure : Prop :=
  (∀ s s1 : State, s.status.busy = true → CoreMoves s s1 →
    (∀ r ∈ opcodeMap, ∀ r' ∈ opcodeMap, s.cmd &&& r.mask = r.pattern → s.cmd &&& r'.mask = r'.pattern → r = r') ∧
    ((∀ r ∈ opcodeMap, s.cmd &&& r.mask ≠ r.pattern) → step s = .next (failState s1 0x01)) ∧
    ∀ r ∈ opcodeMap, s.cmd &&& r.mask = r.pattern →
      (badBank r.mnemonic s.cmd → step s = .next (failState s1 0x01)) ∧
      (¬badBank r.mnemonic s.cmd → ∃ i : Instr, i.mnemonic = r.mnemonic ∧ encode i = s.cmd ∧ step s = exec i s1)) ∧
  ∀ w : Word,
    (reservedOpc (bits w 0 8) ↔ ∀ r ∈ opcodeMap, bits r.pattern 0 8 ≠ bits w 0 8) ∧
    ∀ r ∈ opcodeMap, w &&& r.mask = r.pattern → bits r.pattern 0 8 = bits w 0 8

/-- A step runs the latched command when it decodes: at the core's turn, after `withFetchWord`, and after a CMD write. -/
def Obligations.StepRunsTheDecodedCommand : Prop :=
  (∀ (s s1 : State) (i : Instr), s.status.busy = true → CoreMoves s s1 → decode s.cmd = .ok i → step s = exec i s1) ∧
  (∀ (s : State) (w : Word) (i : Instr), decode w = .ok i →
    step (s.withFetchWord 32 w.toNat) = exec i (issued s w)) ∧
  (∀ (s : State) (w : Word) (i : Instr) (rest : List HostEvent), s.status.busy = false → s.status.err = false →
    decode w = .ok i → s.host = .write 0x004 4 (w.setWidth 64) :: .coreTurn :: rest →
    ∃ t, step s = .next t ∧ t.host = .coreTurn :: rest ∧
      step t = exec i { issued s w with bus := .written, host := rest })

/-- Command words written out from their formats decode to the command they stand for. -/
def Obligations.SampleWordsDecode : Prop :=
  decode 0x00000000 = .ok .nop ∧ decode 0x00CA5301 = .ok (.gfAdd 0x53 0xCA) ∧
  decode 0x00801D04 = .ok (.gfDiv 0x1D 0x80) ∧ decode 0x0001FD05 = .ok (.gfExp 509) ∧
  decode 0x00005306 = .ok (.gfLog 0x53) ∧ decode 0x00CA1012 = .ok (.vaxpy 0 1 0xCA) ∧
  decode 0x00000413 = .ok (.vcopy 4 0) ∧ decode 0x00020011 = .ok (.vscale 0 2) ∧
  decode 0x00000214 = .ok (.vzero 2) ∧ decode 0x00000030 = .ok .blkConfig ∧ decode 0x00000042 = .ok .blkDecode

/-! ### The host: registers, STATUS, the window -/

/-- CMD: issue, refusal, execution by the core's next turn, and its reads (10_state.md R22). -/
def Obligations.CmdWriteIssues : Prop :=
  ∀ (s : State) (v : BitVec 64),
    (s.status.busy = false → s.status.err = false →
      HostDoes s (.write 0x004 4 v) { issued s (v.setWidth 32) with bus := .written }) ∧
    (s.status.busy = true ∨ s.status.err = true → HostDoes s (.write 0x004 4 v) (writeRefused s)) ∧
    (∀ s1 i, s.status.busy = true → CoreMoves s s1 → decode s.cmd = .ok i → step s = exec i s1) ∧
    ∃ (x : BusResponse) (o : Bool), (x = .data 0 ∨ x = .refusedRead 0) ∧
      HostDoes s (.read 0x004 4) { s with status := { s.status with ovr := o }, bus := x }

/-- STATUS: the place of every field, its reads, write-one-to-clear, and its reset value (10_state.md R23). -/
def Obligations.StatusRegister : Prop :=
  (∀ f : Status, f.toWord.getLsbD 0 = f.busy ∧ f.toWord.getLsbD 1 = f.done ∧ f.toWord.getLsbD 2 = f.err ∧
    f.toWord.getLsbD 3 = f.ovr ∧ f.toWord.getLsbD 4 = f.cfgValid ∧ f.toWord.getLsbD 5 = f.cValid ∧
    bits f.toWord 6 2 = 0 ∧ bits f.toWord 8 8 = f.errCode.toNat ∧ bits f.toWord 16 16 = 0) ∧
  (∀ s : State, Reads s 0x008 s.status.toWord) ∧
  (∀ (s : State) (v : BitVec 64), HostDoes s (.write 0x008 4 v)
    { s with
      status := { s.status with
        done := s.status.done && !v.getLsbD 1
        err := s.status.err && !v.getLsbD 2
        ovr := s.status.ovr && !v.getLsbD 3
        errCode := if v.getLsbD 2 then 0 else s.status.errCode }
      bus := .written }) ∧
  (∀ s : State, MachineOk s → s.status.err = false → s.status.errCode = 0) ∧
  State.reset.status.toWord = 0

/-- The return from a failure: a STATUS write with bit 2 set, after which the next CMD write issues (60_exceptions.md R304). -/
def Obligations.AcknowledgeFailure : Prop :=
  ∀ (s : State) (v w : BitVec 64) (rest : List HostEvent), s.status.busy = false → v.getLsbD 2 = true →
    s.host = .write 0x008 4 v :: .write 0x004 4 w :: rest →
    ∃ t u, step s = .next t ∧ t.status.err = false ∧ t.status.errCode = 0x00 ∧
      t = { s with status := t.status, bus := .written, host := .write 0x004 4 w :: rest } ∧
      step t = .next u ∧ u = { issued t (w.setWidth 32) with bus := .written, host := rest }

/-- The register file while no command runs: what each register reads, and what a write to it does (10_state.md R21, R29,
R34, R35, R50). -/
def Obligations.RegisterFile : Prop :=
  ∀ (s : State) (v : BitVec 64), s.status.busy = false →
    Reads s 0x000 0x52510007 ∧
    (∀ n : Fin 8, Reads s (0x010 + 4 * n.val) s.args[n] ∧ Reads s (0x030 + 4 * n.val) s.res[n] ∧
      HostDoes s (.write (BitVec.ofNat 48 (0x010 + 4 * n.val)) 4 v)
        { s with args := s.args.set n (v.setWidth 32), bus := .written }) ∧
    (∀ n < 12, Reads s (0x050 + 4 * n) ((cfgList s.cfg).getD n 0)) ∧
    Reads s 0x080 s.mRows ∧
    (∀ off, off < 0x1000 → off % 4 = 0 → off = 0x00C ∨ 0x084 ≤ off → Reads s off 0) ∧
    (∀ off, off < 0x1000 → off % 4 = 0 → off = 0x000 ∨ off = 0x00C ∨ 0x030 ≤ off →
      HostDoes s (.write (BitVec.ofNat 48 off) 4 v) { s with bus := .written })

/-- Host accesses while BUSY = 1 (20_memory.md R68): the result registers, ID and STATUS are read; every other admitted
access but a STATUS write is refused and sets OVR. -/
def Obligations.AccessWhileBusy : Prop :=
  ∀ (s : State) (v : BitVec 64), s.status.busy = true →
    Reads s 0x000 0x52510007 ∧ Reads s 0x008 s.status.toWord ∧ Reads s 0x080 s.mRows ∧
    (∀ n : Fin 8, Reads s (0x030 + 4 * n.val) s.res[n]) ∧
    (∀ n < 12, Reads s (0x050 + 4 * n) ((cfgList s.cfg).getD n 0)) ∧
    (∀ (a : BitVec 48) (n : Nat), BuildOk s.build → Admitted s.build a.toNat n → a ≠ 0x008 →
      HostDoes s (.write a n v) (writeRefused s)) ∧
    (∀ (a : BitVec 48) (n : Nat), BuildOk s.build → Admitted s.build a.toNat n → a.toNat ≠ 0x000 → a.toNat ≠ 0x008 →
      ¬(0x030 ≤ a.toNat ∧ a.toNat ≤ 0x080) →
      ∃ (x : BitVec 64) (k : Nat), HostDoes s (.read a n)
        { s with status := { s.status with ovr := true }, bus := .refusedRead x, freeEpoch := k })

/-- The map, the widths and the alignments: an access they do not admit is answered with a bus error and changes no state;
one they admit is not (20_memory.md R60, R62, R65). That it is so while BUSY = 1 too, with OVR as it was, is the model's
choice between R62, R65 and R68 (assumption log 11). -/
def Obligations.WidthsAndMap : Prop :=
  ∀ (s : State) (a : BitVec 48) (n : Nat) (v : BitVec 64), BuildOk s.build →
    (¬Admitted s.build a.toNat n →
      HostDoes s (.read a n) { s with bus := .busError } ∧ HostDoes s (.write a n v) { s with bus := .busError }) ∧
    (Admitted s.build a.toNat n →
      (∃ t, HostDoes s (.read a n) t ∧ t.bus ≠ .busError ∧ t.bus ≠ .idle) ∧
      (∃ t, HostDoes s (.write a n v) t ∧ (t.bus = .written ∨ t.bus = .refusedWrite)))

/-- Element addresses, and that no bank overlaps another (20_memory.md R61). -/
def Obligations.ElementAddresses : Prop :=
  ∀ b : Build, BuildOk b →
    (∀ r c, matRow b .matA r + c = 0x100000000000 + r * b.lMax + c ∧ matRow b .matX r + c = 0x200000000000 + r * b.lMax + c) ∧
    (∀ r t, symRow b .symD r + t = 0x300000000000 + r * b.tMax + t ∧ symRow b .symC r + t = 0x400000000000 + r * b.tMax + t ∧
      symRow b .symSrc r + t = 0x500000000000 + r * b.tMax + t ∧ symRow b .symRx r + t = 0x600000000000 + r * b.tMax + t ∧
      symRow b .symOut r + t = 0x700000000000 + r * b.tMax + t) ∧
    (∀ n, wordAt .permC n = 0x000100000000 + 4 * n ∧ wordAt .rowD n = 0x000200000000 + 4 * n ∧
      wordAt .rxEsi n = 0x000300000000 + 4 * n) ∧
    (∀ r : Region, r.size b < 2 ^ 34) ∧
    (∀ r q : Region, ∀ a, r.holds b a 1 = true → q.holds b a 1 = true → r = q) ∧
    (∀ r : Region, r.base + r.size b ≤ 2 ^ 48 ∧ 0x1000 ≤ r.base)

/-- Little-endian host writes and reads of the banks (20_memory.md R63, R65, R66). At the addresses of PERM_C, ROW_D and MAT_X,
which only CORE writes (10_state.md R20, R37, R43), a host write leaves every bank as it was, and its bytes are read back where
the bank holds no value: DEDUCED from R66 and R46 (assumption log 12). -/
def Obligations.HostBytesAreLittleEndian : Prop :=
  ∀ (s : State) (a : BitVec 48) (n : Nat) (v : BitVec 64) (r : Region), BuildOk s.build → s.status.busy = false →
    r.holds s.build a.toNat n = true → widthOk r.isWords a.toNat n = true →
    (r ≠ .permC → r ≠ .rowD → r ≠ .matX → ∃ m, HostDoes s (.write a n v) { s with mem := m, bus := .written } ∧
      StoresOnly s.mem m a.toNat n fun k => BitVec.ofNat 8 (v.toNat / 256 ^ k)) ∧
    (r = .permC ∨ r = .rowD ∨ r = .matX → ∃ m, HostDoes s (.write a n v) { s with hostCopy := m, bus := .written } ∧
      StoresOnly s.hostCopy m a.toNat n fun k => BitVec.ofNat 8 (v.toNat / 256 ^ k)) ∧
    (∀ w : List Byte, w.length = n → (∀ k < n, s.mem.read (a.toNat + k) = some (w.getD k 0) ∨
        s.mem.read (a.toNat + k) = none ∧ s.hostCopy.read (a.toNat + k) = some (w.getD k 0)) →
      ∃ d : BitVec 64, HostDoes s (.read a n) { s with bus := .data d } ∧ d.toNat < 256 ^ n ∧
        ∀ k < n, d.toNat / 256 ^ k % 256 = (w.getD k 0).toNat)

/-- A read changes nothing but the bus and, while BUSY = 1, at most OVR and the model's epoch of the free bytes (log 9). While
BUSY = 0 its answer depends neither on what the bus answered before nor on what the host does next, so that reads made one
after the other answer the same, also where a byte holds no value (20_memory.md R66, R68). -/
def Obligations.ReadsHaveNoSideEffect : Prop :=
  ∀ (s : State) (a : BitVec 48) (n : Nat),
    (∃ x c o, HostDoes s (.read a n) { s with bus := x, freeEpoch := c, status := { s.status with ovr := o } }) ∧
    (s.status.busy = false → ∃ x, ∀ y rest,
      step { s with bus := y, host := .read a n :: rest } = .next { s with bus := x, host := rest })

/-- Only the host (or reset) writes an ARG register, only a command that completes without failing (or reset) writes a RES
register, and nothing writes a read-only memory (10_state.md R29; 70_reset_and_hazards.md R332). -/
def Obligations.RegisterWriters : Prop :=
  ∀ s t : State, MachineOk s → step s = .next t →
    t.build = s.build ∧
    (t.args ≠ s.args → (∃ rest, s.host = .reset :: rest) ∨
      ∃ (n : Fin 8) (v : BitVec 64) (rest : List HostEvent),
        s.host = .write (BitVec.ofNat 48 (0x010 + 4 * n.val)) 4 v :: rest ∧ t.args = s.args.set n (v.setWidth 32)) ∧
    (t.res ≠ s.res → (∃ rest, s.host = .reset :: rest) ∨
      (s.status.busy = true ∧ (∃ s1, CoreMoves s s1) ∧ t.status.err = false))

/-! ### What every command keeps -/

/-- The frame of every command: the registers it may write, and that it completes the handshake (10_state.md R29, R34, R35,
R45; 30_encoding.md R86). -/
def Obligations.CommandFrame : Prop :=
  ∀ (i : Instr) (s t : State), exec i s = .next t →
    t.build = s.build ∧ t.cmd = s.cmd ∧ t.args = s.args ∧ t.host = s.host ∧ t.bus = s.bus ∧
    (∀ n : Fin 8, n.val ∉ resWritten i → t.res[n] = s.res[n]) ∧
    (s.status.err = false → t.status.err = true → t.res = s.res) ∧
    (i ≠ .blkConfig → t.cfg = s.cfg) ∧
    (i ≠ .piSolve → i ≠ .blkEncode → i ≠ .blkDecode → t.hostCopy = s.hostCopy) ∧
    (i ≠ .buildA → i ≠ .piSolve → i ≠ .blkEncode → i ≠ .blkDecode → t.mRows = s.mRows) ∧
    t.status.busy = false ∧ t.status.done = true ∧ t.status.ovr = s.status.ovr

/-- Which commands set and clear CFG_VALID and C_VALID (10_state.md R28). -/
def Obligations.ValidFlags : Prop :=
  ∀ (i : Instr) (s t : State), s.status.err = false → exec i s = .next t →
    (i ≠ .blkConfig → t.status.cfgValid = s.status.cfgValid) ∧
    (i = .blkConfig → t.status.cValid = false ∧ t.status.cfgValid = !t.status.err) ∧
    (i ≠ .blkConfig → i ≠ .piSolve → i ≠ .blkEncode → i ≠ .blkDecode → t.status.cValid = s.status.cValid) ∧
    (i = .piSolve ∨ i = .blkEncode → t.status.err = false → t.status.cValid = true) ∧
    (i = .piSolve ∨ i = .blkEncode ∨ i = .blkDecode → t.status.err = true → 0x20 ≤ t.status.errCode.toNat →
      t.status.cValid = false)

/-- Reset (70_reset_and_hazards.md R330, R331): what it leaves in every register and bank, from any state, and that the
machine starts there. -/
def Obligations.ResetValues : Prop :=
  (∀ (s : State) (rest : List HostEvent), s.host = .reset :: rest →
    ∃ t, step s = .next t ∧ t.host = rest ∧ t.build = s.build ∧ t.status.toWord = 0 ∧ t.args = Vector.replicate 8 0 ∧
      t.res = Vector.replicate 8 0 ∧ cfgList t.cfg = List.replicate 12 0 ∧ t.mRows = 0 ∧ t.cmd = 0 ∧
      (∀ a, t.mem.read a = none ∧ t.hostCopy.read a = none) ∧ Reads t 0x000 0x52510007 ∧ Reads t 0x004 0) ∧
  State.reset.status.toWord = 0 ∧ State.reset.args = Vector.replicate 8 0 ∧ State.reset.res = Vector.replicate 8 0 ∧
  cfgList State.reset.cfg = List.replicate 12 0 ∧ State.reset.mRows = 0 ∧
  ∀ a, State.reset.mem.read a = none ∧ State.reset.hostCopy.read a = none

/-! ### Invariants of every step -/

/-- Every step keeps the banks, and what the host stored beside them, in their canonical form. -/
def Obligations.StepKeepsMemoryCanonical : Prop :=
  ∀ s t : State, step s = .next t → (s.mem.wf → t.mem.wf) ∧ (s.hostCopy.wf → t.hostCopy.wf)

/-- Every step keeps the machine sound: the build legal, STATUS legal, the CFG registers what BLK_CONFIG wrote while
CFG_VALID = 1, the banks canonical and inside the populated map, PERM_C, ROW_D and MAT_X without value between two steps. -/
def Obligations.StepKeepsMachineSound : Prop :=
  ∀ s t : State, MachineOk s → step s = .next t → MachineOk t

/-- The state after reset is sound. -/
def Obligations.ResetIsSound : Prop := MachineOk State.reset

/-- No command writes outside the bytes [0, T) of a symbol row and the columns [0, L) of a MAT_A row (20_memory.md R67); of what
the host stored at the addresses of MAT_X, PERM_C and ROW_D a solve forgets its scratch (44_pi_solver.md R246), and nothing
else changes. -/
def Obligations.CommandsWriteInsideTheBlock : Prop :=
  ∀ (i : Instr) (s t : State) (a : Nat), MachineOk s → exec i s = .next t →
    (t.mem.read a ≠ s.mem.read a → InSymbols s a ∨ InMatrix s a) ∧
    (t.hostCopy.read a ≠ s.hostCopy.read a → (i = .piSolve ∨ i = .blkEncode ∨ i = .blkDecode) ∧
      Scratch s (mMaxOf s.build) a ∧ t.hostCopy.read a = none)

/-- No command reads outside them either, but for RX_ESI: two states that differ outside only, or in what the host stored at
the addresses of MAT_X, PERM_C and ROW_D, end alike, and their bytes outside stay as they were (20_memory.md R67). -/
def Obligations.CommandsReadInsideTheBlock : Prop :=
  ∀ (i : Instr) (s s' : State), MachineOk s → MachineOk s' → s' = { s with mem := s'.mem, hostCopy := s'.hostCopy } →
    (∀ a, InSymbols s a ∨ InMatrix s a ∨ InEsi s a → s'.mem.read a = s.mem.read a) →
    (exec i s = .fault .noValue ∧ exec i s' = .fault .noValue) ∨
    ∃ t t', exec i s = .next t ∧ exec i s' = .next t' ∧ t' = { t with mem := t'.mem, hostCopy := t'.hostCopy } ∧
      ∀ a, (InSymbols s a ∨ InMatrix s a ∨ InEsi s a → t'.mem.read a = t.mem.read a) ∧
        (¬(InSymbols s a ∨ InMatrix s a ∨ InEsi s a) → t'.mem.read a = s'.mem.read a)

/-! ### Failures -/

/-- Which codes a decoded command can raise, and that a command ends in a next state or in the fault of a location without
value (60_exceptions.md R300, R301; 10_state.md R46). -/
def Obligations.CodesEachCommandRaises : Prop :=
  ∀ (i : Instr) (s : State), i.wellFormed = true → s.status.err = false →
    exec i s = .fault .noValue ∨
    ∃ t, exec i s = .next t ∧ (t.status.err = true → t.status.errCode ∈ raisedBy i) ∧
      (t.status.err = false → t.status.errCode = s.status.errCode)

/-- A command that fails leaves every bank byte as it was, but for the scratch of a failed solve, which then holds no value
(44_pi_solver.md R245, R246; 45_block_codec.md R280). -/
def Obligations.FailedCommandsKeepTheBanks : Prop :=
  ∀ (i : Instr) (s t : State), MachineOk s → s.status.err = false → exec i s = .next t → t.status.err = true →
    ∀ a, t.mem.read a ≠ s.mem.read a →
      (t.status.errCode = 0x20 ∨ t.status.errCode = 0x21) ∧ t.mem.read a = none ∧
      ((∃ r < mMaxOf s.build, ∃ c < lOf s, a = aRow s r + c) ∨ ∃ r < mMaxOf s.build, ∃ k < tOf s, a = dRow s r + k)

/-! ### NOP and the scalar commands -/

/-- NOP completes and changes nothing else (60_exceptions.md R310). -/
def Obligations.NopCompletes : Prop :=
  EncodedN 0x00 .nop ∧ (∀ s : State, exec .nop s = .next { s with status := doneStatus s.status }) ∧
  (doneStatus State.reset.status).toWord = 0x00000002

/-- GF_ADD and GF_SUB (40_gf256.md R110, R111). -/
def Obligations.GfAddAndGfSub : Prop :=
  EncodedS2 0x01 .gfAdd ∧ EncodedS2 0x02 .gfSub ∧
  ∀ (s : State) (u v : Byte),
    exec (.gfAdd u v) s = .next (res0State s ((u ^^^ v).setWidth 32)) ∧
    exec (.gfSub u v) s = .next (res0State s ((u ^^^ v).setWidth 32))

/-- GF_MUL over the tables (40_gf256.md R102, R112). -/
def Obligations.GfMulResult : Prop :=
  EncodedS2 0x03 .gfMul ∧
  (∀ (s : State) (u v : Byte), BuildOk s.build →
    exec (.gfMul u v) s = .next (res0State s ((mulRule s.build u v).setWidth 32))) ∧
  ∀ s : State, s.build.expRom = gfExpRom → s.build.logRom = gfLogRom →
    exec (.gfMul 0x80 0x02) s = .next (res0State s 0x1D) ∧ exec (.gfMul 0xFF 0xFF) s = .next (res0State s 0xE2) ∧
    exec (.gfMul 0x53 0xCA) s = .next (res0State s 0x8F)

/-- GF_DIV: DOMAIN for a zero divisor, else the quotient over the tables (40_gf256.md R103, R113). -/
def Obligations.GfDivResult : Prop :=
  EncodedS2 0x04 .gfDiv ∧
  (∀ (s : State) (u : Byte), exec (.gfDiv u 0) s = .next (failState s 0x03)) ∧
  (∀ (s : State) (u v : Byte), BuildOk s.build → v ≠ 0 →
    exec (.gfDiv u v) s = .next (res0State s ((divRule s.build u v).setWidth 32)) ∧
    (u = v → divRule s.build u v = 1)) ∧
  ∀ s : State, s.build.expRom = gfExpRom → s.build.logRom = gfLogRom →
    exec (.gfDiv 0x01 0x53) s = .next (res0State s 0x8C) ∧ exec (.gfDiv 0x1D 0x80) s = .next (res0State s 0x02)

/-- GF_EXP and GF_LOG: DOMAIN outside the tables, else the table's entry (40_gf256.md R114, R115). -/
def Obligations.GfExpAndGfLog : Prop :=
  (∀ w : Word, bits w 0 8 = 0x05 →
    (bits w 17 15 = 0 → decode w = .ok (.gfExp (BitVec.ofNat 9 (bits w 8 9)))) ∧
    (bits w 17 15 ≠ 0 → ∃ e, decode w = .error e)) ∧
  (∀ w : Word, bits w 0 8 = 0x06 →
    (bits w 16 16 = 0 → decode w = .ok (.gfLog (BitVec.ofNat 8 (bits w 8 8)))) ∧
    (bits w 16 16 ≠ 0 → ∃ e, decode w = .error e)) ∧
  ∀ s : State,
    (∀ idx : BitVec 9, 510 ≤ idx.toNat → exec (.gfExp idx) s = .next (failState s 0x03)) ∧
    (∀ idx : BitVec 9, idx.toNat < 510 →
      exec (.gfExp idx) s = .next (res0State s ((s.build.expRom.getD idx.toNat 0).setWidth 32))) ∧
    exec (.gfLog 0) s = .next (failState s 0x03) ∧
    (∀ x : Byte, x ≠ 0 → exec (.gfLog x) s = .next (res0State s ((s.build.logRom.getD (x.toNat - 1) 0).setWidth 32))) ∧
    (s.build.expRom = gfExpRom → s.build.logRom = gfLogRom →
      exec (.gfExp 8) s = .next (res0State s 0x1D) ∧ exec (.gfExp 255) s = .next (res0State s 0x01) ∧
      exec (.gfExp 509) s = .next (res0State s 0x8E) ∧ exec (.gfLog 0x01) s = .next (res0State s 0) ∧
      exec (.gfLog 0x02) s = .next (res0State s 1) ∧ exec (.gfLog 0x53) s = .next (res0State s 206) ∧
      exec (.gfLog 0x8E) s = .next (res0State s 254))

/-- EXP_ROM holds the powers of the generator, two periods of them, and LOG_ROM the unique exponent in [0, 254] of every
nonzero byte (10_state.md R30, R31; 40_gf256.md R104, R105). -/
def Obligations.FieldTables : Prop :=
  ∀ b : Build, BuildOk b →
    b.expRom.length = 510 ∧ b.logRom.length = 256 ∧
    (∀ n < 510, b.expRom.getD n 0 = alphaPow b.gfPoly (n % 255)) ∧
    (∀ x : Byte, x ≠ 0 → (b.logRom.getD (x.toNat - 1) 0).toNat ≤ 254 ∧
      ∀ e ≤ 254, b.expRom.getD e 0 = x ↔ e = (b.logRom.getD (x.toNat - 1) 0).toNat) ∧
    b.logRom.getD 255 1 = 0

/-- The laws of the field (40_gf256.md R106). -/
def Obligations.FieldLaws : Prop :=
  ∀ b : Build, BuildOk b → ∀ u v w : Byte,
    gfMul b u 0 = 0 ∧ gfMul b u 1 = u ∧ gfMul b u v = gfMul b v u ∧ (v ≠ 0 → gfDiv b (gfMul b u v) v = u) ∧
    (u ≠ 0 → b.expRom.getD (gfLog b u).toNat 0 = u) ∧
    gfAdd (gfAdd u v) w = gfAdd u (gfAdd v w) ∧ gfAdd u v = gfAdd v u ∧ gfAdd u 0 = u ∧ gfAdd u u = 0 ∧
    (u ≠ 0 → v ≠ 0 → gfMul b u v = alphaPow b.gfPoly (((gfLog b u).toNat + (gfLog b v).toNat) % 255) ∧ gfMul b u v ≠ 0) ∧
    gfMul b u (gfAdd v w) = gfAdd (gfMul b u v) (gfMul b u w) ∧
    (v ≠ 0 → gfDiv b u v = gfMul b u (gfDiv b 1 v))

/-- The table product is the product of polynomials over GF(2) reduced modulo GF_POLY (40_gf256.md R100, R102). -/
def Obligations.GfMulIsThePolynomialProduct : Prop :=
  ∀ b : Build, BuildOk b → ∀ u v : Byte, gfMul b u v = polyProduct b.gfPoly u 8 v

/-! ### The vector commands -/

/-- The common checks of the vector commands, in their order (40_gf256.md R120; 30_encoding.md R87). -/
def Obligations.VectorChecks : Prop :=
  EncodedV 0x10 [(24, 8), (16, 8)] [8, 12] (fun w => .vxor (bankAt w 8) (bankAt w 12)) ∧
  EncodedV 0x11 [(24, 8), (12, 4)] [8] (fun w => .vscale (bankAt w 8) (betaAt w)) ∧
  EncodedV 0x12 [(24, 8)] [8, 12] (fun w => .vaxpy (bankAt w 8) (bankAt w 12) (betaAt w)) ∧
  EncodedV 0x13 [(24, 8), (16, 8)] [8, 12] (fun w => .vcopy (bankAt w 8) (bankAt w 12)) ∧
  EncodedV 0x14 [(24, 8), (16, 8), (12, 4)] [8] (fun w => .vzero (bankAt w 8)) ∧
  ∀ (i : Instr) (s : State) (d : Nat) (src : Option Nat), vectorBanks i = some (d, src) →
    ((5 ≤ d ∨ ∃ x ∈ src, 5 ≤ x) → exec i s = .next (failState s 0x01)) ∧
    (d < 5 → (∀ x ∈ src, x < 5) → s.status.cfgValid = false → exec i s = .next (failState s 0x02)) ∧
    (d < 5 → (∀ x ∈ src, x < 5) → s.status.cfgValid = true →
      (rowsOf s.build d ≤ argn s 0 ∨ ∃ x ∈ src, rowsOf s.build x ≤ argn s 1) → exec i s = .next (failState s 0x04))

/-- VXOR and VAXPY: every byte of the destination row gets its result from the old operand bytes, and nothing else changes
(40_gf256.md R121, R123). That the code 3 names SYM_RX as a destination too is assumption log 26. -/
def Obligations.VxorAndVaxpy : Prop :=
  ∀ (s : State) (db sb : BankCode) (beta : Byte), db.toNat < 5 → sb.toNat < 5 → s.status.cfgValid = true →
    argn s 0 < rowsOf s.build db.toNat → argn s 1 < rowsOf s.build sb.toNat →
    Valued s.mem (symAt s db.toNat (argn s 0)) (tOf s) → Valued s.mem (symAt s sb.toNat (argn s 1)) (tOf s) →
    (∃ m, exec (.vxor db sb) s = .next { s with mem := m, status := doneStatus s.status } ∧
      StoresOnly s.mem m (symAt s db.toNat (argn s 0)) (tOf s) fun k =>
        val s.mem (symAt s db.toNat (argn s 0) + k) ^^^ val s.mem (symAt s sb.toNat (argn s 1) + k)) ∧
    (∃ m, exec (.vaxpy db sb beta) s = .next { s with mem := m, status := doneStatus s.status } ∧
      StoresOnly s.mem m (symAt s db.toNat (argn s 0)) (tOf s) fun k =>
        val s.mem (symAt s db.toNat (argn s 0) + k) ^^^ gfMul s.build beta (val s.mem (symAt s sb.toNat (argn s 1) + k)))

/-- VSCALE, VZERO and VCOPY; VZERO and VCOPY do not read their destination (40_gf256.md R122, R124, R125). That the
code 3 names SYM_RX as a destination too is assumption log 26. -/
def Obligations.VscaleVzeroAndVcopy : Prop :=
  (∀ (s : State) (db : BankCode) (beta : Byte), db.toNat < 5 → s.status.cfgValid = true →
     argn s 0 < rowsOf s.build db.toNat →
     (Valued s.mem (symAt s db.toNat (argn s 0)) (tOf s) →
       ∃ m, exec (.vscale db beta) s = .next { s with mem := m, status := doneStatus s.status } ∧
         StoresOnly s.mem m (symAt s db.toNat (argn s 0)) (tOf s) fun k =>
           gfMul s.build beta (val s.mem (symAt s db.toNat (argn s 0) + k))) ∧
     (∃ m, exec (.vzero db) s = .next { s with mem := m, status := doneStatus s.status } ∧
       StoresOnly s.mem m (symAt s db.toNat (argn s 0)) (tOf s) fun _ => 0)) ∧
  (∀ (s : State) (db sb : BankCode), db.toNat < 5 → sb.toNat < 5 → s.status.cfgValid = true →
     argn s 0 < rowsOf s.build db.toNat → argn s 1 < rowsOf s.build sb.toNat →
     Valued s.mem (symAt s sb.toNat (argn s 1)) (tOf s) →
     ∃ m, exec (.vcopy db sb) s = .next { s with mem := m, status := doneStatus s.status } ∧
       StoresOnly s.mem m (symAt s db.toNat (argn s 0)) (tOf s) fun k => val s.mem (symAt s sb.toNat (argn s 1) + k))

/-- Every command that reads a bank faults on a location without value where it reads one (10_state.md R46): VXOR, VSCALE,
VAXPY, VCOPY, PI_SOLVE, LT_ENC, BLK_ENCODE, BLK_SYMBOL and BLK_DECODE. That the read counts where the result does not depend
on it (VAXPY with BETA = 0, every row of PI_SOLVE) and before a later failure (RX_ESI [0, n) before the ESI range check and
the solve) is DEDUCED (assumption log 22). -/
def Obligations.NoValueFaults : Prop :=
  (∀ (s : State) (db sb : BankCode) (beta : Byte), db.toNat < 5 → sb.toNat < 5 → s.status.cfgValid = true →
    argn s 0 < rowsOf s.build db.toNat → argn s 1 < rowsOf s.build sb.toNat →
    (¬Valued s.mem (symAt s sb.toNat (argn s 1)) (tOf s) →
      exec (.vxor db sb) s = .fault .noValue ∧ exec (.vaxpy db sb beta) s = .fault .noValue ∧
      exec (.vcopy db sb) s = .fault .noValue) ∧
    (¬Valued s.mem (symAt s db.toNat (argn s 0)) (tOf s) →
      exec (.vxor db sb) s = .fault .noValue ∧ exec (.vaxpy db sb beta) s = .fault .noValue ∧
      exec (.vscale db beta) s = .fault .noValue)) ∧
  ∀ s : State, s.status.cfgValid = true →
    (lOf s ≤ argn s 0 → argn s 0 ≤ mMaxOf s.build → ∀ r < argn s 0,
      ¬Valued s.mem (aRow s r) (lOf s) ∨ ¬Valued s.mem (dRow s r) (tOf s) → exec .piSolve s = .fault .noValue) ∧
    (∀ e < kOf s, ¬Valued s.mem (srcRow s e) (tOf s) → exec .blkEncode s = .fault .noValue) ∧
    (argn s 0 < kOf s → argn s 0 < 2 ^ 24 → ¬Valued s.mem (srcRow s (argn s 0)) (tOf s) →
      exec .blkSymbol s = .fault .noValue) ∧
    (s.status.cValid = true → ∀ n ∈ indicesOf s.build s.cfg (argn s 0), ¬Valued s.mem (cRow s n) (tOf s) →
      exec .ltEnc s = .fault .noValue) ∧
    (s.status.cValid = true → kOf s ≤ argn s 0 → argn s 0 < 2 ^ 24 →
      ∀ n ∈ indicesOf s.build s.cfg (isiRule s (argn s 0)), ¬Valued s.mem (cRow s n) (tOf s) →
      exec .blkSymbol s = .fault .noValue) ∧
    (argn s 0 ≤ s.build.rxMax →
      (¬Valued s.mem 0x000300000000 (4 * argn s 0) → exec .blkDecode s = .fault .noValue) ∧
      (Valued s.mem 0x000300000000 (4 * argn s 0) → (∀ q < argn s 0, esiAt s q < 2 ^ 24) →
        (missingRule s (argn s 0)).length ≤ (repairsRule s (argn s 0)).length →
        ∀ q < argn s 0, ¬Valued s.mem (rxRow s q) (tOf s) →
          (esiAt s q < kOf s ∧ IsFirst s (argn s 0) (esiAt s q) q) ∨
            (missingRule s (argn s 0) ≠ [] ∧ q ∈ repairsRule s (argn s 0)) →
          exec .blkDecode s = .fault .noValue))

/-! ### Tables and configuration -/

/-- SIT_CEIL and SIT_LOOKUP (41_tables.md R140, R141, R145, R146). -/
def Obligations.SitCeilAndSitLookup : Prop :=
  (EncodedN 0x20 .sitCeil ∧
   ∀ s : State,
     (argn s 0 = 0 → exec .sitCeil s = .next (failState s 0x10)) ∧
     ((∀ r ∈ s.build.sit, r.kp < argn s 0) → exec .sitCeil s = .next (failState s 0x10)) ∧
     (∀ r ∈ s.build.sit, BuildOk s.build → 1 ≤ argn s 0 → argn s 0 ≤ r.kp →
       (∀ q ∈ s.build.sit, argn s 0 ≤ q.kp → r.kp ≤ q.kp) → exec .sitCeil s = .next (res0State s (word r.kp))) ∧
     (BuildOk s.build → (argn s 0 = 0 ∨ 56403 < argn s 0) → exec .sitCeil s = .next (failState s 0x10)) ∧
     (BuildOk s.build → 1 ≤ argn s 0 → argn s 0 ≤ 10 → exec .sitCeil s = .next (res0State s 10)) ∧
     (BuildOk s.build → 1 ≤ argn s 0 → argn s 0 ≤ 56403 → ∃ kp, exec .sitCeil s = .next (res0State s (word kp)) ∧
       argn s 0 ≤ kp ∧ kp ≤ 56403)) ∧
  (EncodedN 0x21 .sitLookup ∧
   ∀ s : State,
     ((∀ r ∈ s.build.sit, r.kp ≠ argn s 0) → exec .sitLookup s = .next (failState s 0x10)) ∧
     (∀ r ∈ s.build.sit, BuildOk s.build → r.kp = argn s 0 →
       exec .sitLookup s = .next (res4State s r.j r.s r.h r.w)))

/-- PARTITION: DOMAIN for J = 0, else the four values, and the laws of the source on the result registers (41_tables.md R142,
R147). -/
def Obligations.PartitionResult : Prop :=
  EncodedN 0x22 .partition ∧
  ∀ s : State,
    (argn s 1 = 0 → exec .partition s = .next (failState s 0x03)) ∧
    (argn s 1 ≠ 0 →
      exec .partition s = .next (res4State s (argn s 0 / argn s 1) ((argn s 0 + argn s 1 - 1) / argn s 1)
        (argn s 1 - argn s 0 % argn s 1) (argn s 0 % argn s 1)) ∧
      ∀ t, exec .partition s = .next t →
        t.res[0].toNat * t.res[2].toNat + t.res[1].toNat * t.res[3].toNat = argn s 0 ∧
        t.res[2].toNat + t.res[3].toNat = argn s 1 ∧
        (t.res[1].toNat = t.res[0].toNat ∨ t.res[1].toNat = t.res[0].toNat + 1) ∧
        t.res[3].toNat < argn s 1 ∧ 1 ≤ t.res[2].toNat)

/-- RAND and DEG: DOMAIN, else Rand and Deg in the forms of their rules, with Rand below m and Deg in [1, W - 2]
(41_tables.md R148 to R151; the forms are PRESUMED, assumption logs 4 and 5). -/
def Obligations.RandAndDeg : Prop :=
  (EncodedN 0x23 .rand ∧
   ∀ s : State,
     (256 ≤ argn s 1 ∨ argn s 2 = 0 → exec .rand s = .next (failState s 0x03)) ∧
     (argn s 1 < 256 → argn s 2 ≠ 0 →
       exec .rand s = .next (res0State s (word (randRule s.build (argn s 0) (argn s 1) (argn s 2)))) ∧
       randRule s.build (argn s 0) (argn s 1) (argn s 2) < argn s 2 ∧
       (argn s 2 = 1 → exec .rand s = .next (res0State s 0)))) ∧
  (EncodedN 0x24 .deg ∧
   ∀ s : State,
     (2 ^ 20 ≤ argn s 0 ∨ argn s 1 < 3 → exec .deg s = .next (failState s 0x03)) ∧
     (BuildOk s.build → argn s 0 < 2 ^ 20 → 3 ≤ argn s 1 → ∃ j, 1 ≤ j ∧ j ≤ 30 ∧
       s.build.degF.getD (j - 1) 0 ≤ argn s 0 ∧ argn s 0 < s.build.degF.getD j 0 ∧
       exec .deg s = .next (res0State s (word (min j (argn s 1 - 2)))) ∧
       1 ≤ min j (argn s 1 - 2) ∧ min j (argn s 1 - 2) ≤ argn s 1 - 2 ∧
       (argn s 1 = 3 → min j (argn s 1 - 2) = 1) ∧ (argn s 0 = 2 ^ 20 - 1 → j = 30)))

/-- `prime_ceil(n)` is the smallest prime >= n (41_tables.md R143). -/
def Obligations.PrimeCeilIsTheLeastPrime : Prop :=
  (∀ n : Nat, Nat.Prime (primeCeil n) ∧ n ≤ primeCeil n ∧ ∀ p, Nat.Prime p → n ≤ p → primeCeil n ≤ p) ∧
  primeCeil 0 = 2 ∧ primeCeil 1 = 2 ∧ primeCeil 2 = 2

/-- BLK_CONFIG: the CFG registers of the table row of (K, T), or INVALID_PARAMETERS with the CFG registers kept and both
valid flags cleared (41_tables.md R144, R152). -/
def Obligations.BlkConfigResult : Prop :=
  EncodedN 0x30 .blkConfig ∧
  ∀ s : State, BuildOk s.build →
    (∀ r, ConfigRow s.build (argn s 0) (argn s 1) r →
      exec .blkConfig s = .next
        { s with
          cfg := { k := word (argn s 0), t := word (argn s 1), kp := word r.kp, j := word r.j, s := word r.s,
                   h := word r.h, w := word r.w, l := word (r.kp + r.s + r.h), p := word (r.kp + r.s + r.h - r.w),
                   p1 := word (primeCeil (r.kp + r.s + r.h - r.w)), u := word (r.kp + r.s - r.w), b := word (r.w - r.s) }
          status := { doneStatus s.status with cfgValid := true, cValid := false } }) ∧
    ((∀ r, ¬ConfigRow s.build (argn s 0) (argn s 1) r) →
      exec .blkConfig s = .next
        { s with status := failStatus { s.status with cfgValid := false, cValid := false } 0x10 })

/-- The block parameters of a configured block (41_tables.md R144). -/
def Obligations.BlockParameterLaws : Prop :=
  ∀ s : State, MachineOk s → s.status.cfgValid = true →
    let c := s.cfg
    c.l.toNat = c.kp.toNat + c.s.toNat + c.h.toNat ∧ c.l.toNat = c.w.toNat + c.p.toNat ∧
    c.p.toNat = c.u.toNat + c.h.toNat ∧ c.w.toNat = c.b.toNat + c.s.toNat ∧
    c.w.toNat + c.u.toNat = c.kp.toNat + c.s.toNat ∧ c.w.toNat + c.u.toNat + c.h.toNat = c.l.toNat ∧
    1 ≤ c.s.toNat ∧ 2 ≤ c.h.toNat ∧ 3 ≤ c.w.toNat ∧ 2 ≤ c.p.toNat ∧ Nat.Prime c.p1.toNat ∧ c.p.toNat ≤ c.p1.toNat ∧
    (∀ n, Nat.Prime n → c.p.toNat ≤ n → c.p1.toNat ≤ n) ∧
    1 ≤ c.k.toNat ∧ c.k.toNat ≤ c.kp.toNat ∧ c.k.toNat ≤ s.build.kMax ∧ 1 ≤ c.t.toNat ∧ c.t.toNat ≤ s.build.tMax ∧
    c.l.toNat ≤ s.build.lMax

/-! ### Tuples, the constraint matrix, the LT encoder -/

/-- TUPLE: NOT_CONFIGURED, else the tuple of ARG0 in RES0 to RES5 (42_tuple_matrix.md R170, R171). -/
def Obligations.TupleResult : Prop :=
  EncodedN 0x31 .tuple ∧
  ∀ s : State,
    (s.status.cfgValid = false → exec .tuple s = .next (failState s 0x02)) ∧
    (s.status.cfgValid = true →
      let x := argn s 0
      let y := tupleYRule s.cfg.j.toNat x
      let w := s.cfg.w.toNat
      let p1 := s.cfg.p1.toNat
      let d := degOf s.build (randOf s.build y 0 (2 ^ 20)) w
      exec .tuple s = .next
        { s with
          res := (((((s.res.set 0 (word d)).set 1 (word (1 + randOf s.build y 1 (w - 1)))).set 2
            (word (randOf s.build y 2 w))).set 3 (word (if d < 4 then 2 + randOf s.build x 3 2 else 2))).set 4
            (word (1 + randOf s.build x 4 (p1 - 1)))).set 5 (word (randOf s.build x 5 p1))
          status := doneStatus s.status })

/-- The ranges of a tuple, and the indices that TupleIndices visits: the d LT indices b, b + a, ... modulo W, then W plus the
first d1 values below P of the walk b1, b1 + a1, ... modulo P1; their ranges, and that they are distinct where the rule says
so (42_tuple_matrix.md R170, R175, R176). Three turns of the walk are more than d1 <= 3 values need. -/
def Obligations.TupleIndicesInRange : Prop :=
  ∀ (s : State) (x : Nat), MachineOk s → s.status.cfgValid = true →
    let t := tupleOf s.build s.cfg x
    let out := indicesOf s.build s.cfg x
    let w := s.cfg.w.toNat
    1 ≤ t.d ∧ t.d ≤ w - 2 ∧ 1 ≤ t.a ∧ t.a ≤ w - 1 ∧ t.b < w ∧ (t.d1 = 2 ∨ t.d1 = 3) ∧ 1 ≤ t.a1 ∧
    t.a1 ≤ s.cfg.p1.toNat - 1 ∧ t.b1 < s.cfg.p1.toNat ∧
    out.length = t.d + t.d1 ∧ out.take t.d = (List.range t.d).map (fun j => (t.b + j * t.a) % w) ∧
    out.drop t.d = (((piWalk s.cfg.p1.toNat t.a1 t.b1 (3 * s.cfg.p1.toNat)).filter (· < s.cfg.p.toNat)).take t.d1).map (w + ·) ∧
    (∀ n ∈ out.take t.d, n < w) ∧ (∀ n ∈ out.drop t.d, w ≤ n ∧ n < lOf s) ∧
    (Nat.Prime w → (out.take t.d).Nodup) ∧ (t.d1 ≤ s.cfg.p.toNat → (out.drop t.d).Nodup)

/-- `pattern(X)` holds at every column the parity of its occurrences among the indices (42_tuple_matrix.md R187). -/
def Obligations.PatternIsTheParity : Prop :=
  ∀ (b : Build) (c : BlockParams) (x : Nat), (patternOf b c x).length = c.l.toNat ∧
    ∀ n < c.l.toNat, (patternOf b c x).getD n 0 = if (indicesOf b c x).count n % 2 = 1 then 1 else 0

/-- The shape and the entries of the constraint matrix: the LDPC rows, the HDPC rows as the product MT·GAMMA beside an
identity, MT with its ones at the two or three rows of each column, and the G_ENC rows (42_tuple_matrix.md R180 to R188).
How the parameter HDPC_MT is held is the model's choice (assumption log 6). -/
def Obligations.ConstraintMatrixEntries : Prop :=
  (∀ s : State, MachineOk s → s.status.cfgValid = true →
     let m := constraintMatrix s.build s.cfg
     let S := s.cfg.s.toNat
     let B := s.cfg.b.toNat
     let W := s.cfg.w.toNat
     let P := s.cfg.p.toNat
     m.length = lOf s ∧ (∀ row ∈ m, row.length = lOf s) ∧
     ∀ r < S,
       (∀ col < B, entryOf m r col =
         if r = col % S ∨ r = (col % S + (col / S + 1)) % S ∨ r = (col % S + 2 * (col / S + 1)) % S then 1 else 0) ∧
       (∀ col, B ≤ col → col < W → entryOf m r col = if col = B + r then 1 else 0) ∧
       (∀ col, W ≤ col → col < lOf s → entryOf m r col = if col = W + r % P ∨ col = W + (r + 1) % P then 1 else 0)) ∧
  (∀ s : State, MachineOk s → s.status.cfgValid = true →
     let m := constraintMatrix s.build s.cfg
     let S := s.cfg.s.toNat
     let H := s.cfg.h.toNat
     let n := s.cfg.kp.toNat + S
     (∀ h < H, ∀ col < n, entryOf m (S + h) col =
       xorAll ((List.range n).map fun k => gfMul s.build (mtEntry s.build H n h k) (gammaEntry s.build k col))) ∧
     (∀ h < H, ∀ col < H, entryOf m (S + h) (n + col) = if col = h then 1 else 0) ∧
     (∀ h < H, h < 510 → entryOf m (S + h) (n - 1) = s.build.expRom.getD h 0) ∧
     (∀ h < H, ∀ k, k + 1 < n → mtEntry s.build H n h k = if h ∈ mtRows s.build H k then 1 else 0) ∧
     (∀ h < H, h < 510 → mtEntry s.build H n h (n - 1) = s.build.expRom.getD h 0) ∧
     (∀ k, ((mtRows s.build H k).length = 2 ∨ (mtRows s.build H k).length = 3) ∧ (mtRows s.build H k).Nodup ∧
       ∀ h ∈ mtRows s.build H k, h < H) ∧
     (∀ r c, c ≤ r → gammaEntry s.build r c = s.build.expRom.getD ((r - c) % 256) 0) ∧
     (∀ r c, r < c → gammaEntry s.build r c = 0) ∧
     (∀ i < s.cfg.kp.toNat, m.getD (S + H + i) [] = patternOf s.build s.cfg i))

/-- BUILD_A: NOT_CONFIGURED, else the constraint matrix in MAT_A rows and columns [0, L) and M_ROWS = L. ROW_PATTERN:
NOT_CONFIGURED, RANGE, else the pattern of ARG1 in columns [0, L) of MAT_A row ARG0. Nothing else changes
(42_tuple_matrix.md R190, R191). -/
def Obligations.BuildAAndRowPattern : Prop :=
  (EncodedN 0x32 .buildA ∧
   ∀ s : State,
     (s.status.cfgValid = false → exec .buildA s = .next (failState s 0x02)) ∧
     (MachineOk s → s.status.cfgValid = true →
       ∃ m, exec .buildA s = .next { s with mem := m, mRows := s.cfg.l, status := doneStatus s.status } ∧
         (∀ r < lOf s, ∀ c < lOf s, m.read (aRow s r + c) = some (entryOf (constraintMatrix s.build s.cfg) r c)) ∧
         ∀ a, (∀ r < lOf s, ∀ c < lOf s, a ≠ aRow s r + c) → m.read a = s.mem.read a)) ∧
  (EncodedN 0x33 .rowPattern ∧
   ∀ s : State,
     (s.status.cfgValid = false → exec .rowPattern s = .next (failState s 0x02)) ∧
     (s.status.cfgValid = true → mMaxOf s.build ≤ argn s 0 → exec .rowPattern s = .next (failState s 0x04)) ∧
     (s.status.cfgValid = true → argn s 0 < mMaxOf s.build →
       ∃ m, exec .rowPattern s = .next { s with mem := m, status := doneStatus s.status } ∧
         StoresOnly s.mem m (aRow s (argn s 0)) (lOf s) fun c => (patternOf s.build s.cfg (argn s 1)).getD c 0))

/-- LT_ENC: NOT_CONFIGURED, NOT_SOLVED, else SYM_OUT gets the exclusive or of the SYM_C rows of the indices, and nothing else
changes (43_lt_encoder.md R210, R211). -/
def Obligations.LtEncResult : Prop :=
  EncodedN 0x34 .ltEnc ∧
  ∀ s : State,
    (s.status.cfgValid = false → exec .ltEnc s = .next (failState s 0x02)) ∧
    (s.status.cfgValid = true → s.status.cValid = false → exec .ltEnc s = .next (failState s 0x05)) ∧
    (s.status.cfgValid = true → s.status.cValid = true →
      (∀ n ∈ indicesOf s.build s.cfg (argn s 0), Valued s.mem (cRow s n) (tOf s)) →
      ∃ m, exec .ltEnc s = .next { s with mem := m, status := doneStatus s.status } ∧
        StoresOnly s.mem m outRow (tOf s) fun k =>
          xorAll ((indicesOf s.build s.cfg (argn s 0)).map fun n => val s.mem (cRow s n + k)))

/-- `enc(X)` is the product of the row `pattern(X)` and the intermediate symbols (43_lt_encoder.md R212). -/
def Obligations.LtEncIsThePatternProduct : Prop :=
  ∀ (s : State) (x : Nat), MachineOk s → s.status.cfgValid = true →
    (∀ n < lOf s, Valued s.mem (cRow s n) (tOf s)) →
    ∃ v, s.enc x = some v ∧ v.length = tOf s ∧ ∀ k < tOf s, v.getD k 0 =
      xorAll ((List.range (lOf s)).map fun c =>
        gfMul s.build ((patternOf s.build s.cfg x).getD c 0) (val s.mem (cRow s c + k)))

/-! ### The solver -/

/-- The row that a phase 1 step chooses: the candidates, the least count r, the lowest row, and for r = 2 the graph of
maximum component (44_pi_solver.md R222 to R226, R231). -/
def Obligations.RowChoice : Prop :=
  ∀ (m : SolveDims) (st : Solver) (i hi : Nat),
    (chooseRow m st i hi = none ↔ ∀ k hdpc, ¬Candidate m st i hi hdpc k) ∧
    ∀ k r, chooseRow m st i hi = some (k, r) →
      let others := ∃ q, Candidate m st i hi False q
      nzOf st k i hi = r ∧
      (others → Candidate m st i hi False k ∧ ∀ q, Candidate m st i hi False q → r ≤ nzOf st q i hi) ∧
      (¬others → Candidate m st i hi True k ∧ ∀ q, Candidate m st i hi True q → r ≤ nzOf st q i hi) ∧
      (others → r ≠ 2 → ∀ q, Candidate m st i hi False q → nzOf st q i hi = r → k ≤ q) ∧
      (¬others → ∀ q, Candidate m st i hi True q → nzOf st q i hi = r → k ≤ q) ∧
      (others → r = 2 → MaxEdge m st i hi k ∧ ∀ q, MaxEdge m st i hi q → k ≤ q)

/-- Column placement: after it row i has a nonzero in column i, its other window nonzeros at the right end, and every row of
A and of X and the column labels went through one permutation of the window's columns (44_pi_solver.md R228). -/
def Obligations.ColumnPlacement : Prop :=
  ∀ (st : Solver) (i hi n : Nat), i < hi → hi ≤ n → i < st.a.length → (∀ row ∈ st.a, row.length = n) →
    (∀ row ∈ st.x, row.length = n) → st.permC.length = n → 1 ≤ nzOf st i i hi →
    let r := nzOf st i i hi
    let st' := placeColumns st i hi
    entryOf st'.a i i ≠ 0 ∧
    (∀ j, i < j → j < hi - r + 1 → entryOf st'.a i j = 0) ∧ (∀ j, hi - r + 1 ≤ j → j < hi → entryOf st'.a i j ≠ 0) ∧
    st'.d = st.d ∧ st'.rowD = st.rowD ∧
    ∃ f : Equiv.Perm Nat, (∀ j, (j < i ∨ hi ≤ j) → f j = j) ∧
      (∀ k j, entryOf st'.a k j = entryOf st.a k (f j) ∧ entryOf st'.x k j = entryOf st.x k (f j)) ∧
      ∀ j, st'.permC.getD j 0 = st.permC.getD (f j) 0

/-- A successful solve of a consistent system of rank L answers its solution, every SYM_C row once; a successful solve of a
square system answers a solution of it (44_pi_solver.md R236, R241). -/
def Obligations.SolverIsRight : Prop :=
  (∀ (b : Build) (m : SolveDims) (a : List Row) (d c : List Symbol) (out : List (Nat × Symbol)), BuildOk b →
     Shaped m a d → Symbols m.l m.t c → IsSolution b a d c m.t → solve b m a d = .ok out →
     (out.map Prod.fst).Perm (List.range m.l) ∧ ∀ q ∈ out, q.2 = c.getD q.1 []) ∧
  (∀ (b : Build) (m : SolveDims) (a : List Row) (d : List Symbol) (out : List (Nat × Symbol)), BuildOk b →
     Shaped m a d → a.length = m.l → solve b m a d = .ok out →
     ∃ c, Symbols m.l m.t c ∧ IsSolution b a d c m.t ∧ (out.map Prod.fst).Perm (List.range m.l) ∧
       ∀ q ∈ out, q.2 = c.getD q.1 [])

/-- A solve fails, with a code of phase 1 or 2, exactly when the matrix has rank below L: a nonzero vector that every row
sends to 0 (44_pi_solver.md R242). -/
def Obligations.SolverFailsExactlyWhenSingular : Prop :=
  ∀ (b : Build) (m : SolveDims) (a : List Row) (d : List Symbol), BuildOk b → Shaped m a d →
    ((solve b m a d = .error .decodingFailurePh1 ∨ solve b m a d = .error .decodingFailurePh2) ↔
      ∃ x : List Byte, x.length = m.l ∧ (∃ j < m.l, x.getD j 0 ≠ 0) ∧ ∀ row ∈ a, dot b row x = 0)

/-- PI_SOLVE: NOT_CONFIGURED, RANGE, else M_ROWS = M and either the decoding failure with SYM_C unchanged or the solution in
SYM_C, with the scratch without value and nothing else changed (44_pi_solver.md R240, R245, R246). -/
def Obligations.PiSolveResult : Prop :=
  EncodedN 0x38 .piSolve ∧
  ∀ s : State,
    (s.status.cfgValid = false → exec .piSolve s = .next (failState s 0x02)) ∧
    (s.status.cfgValid = true → argn s 0 < lOf s ∨ mMaxOf s.build < argn s 0 →
      exec .piSolve s = .next (failState s 0x04)) ∧
    (MachineOk s → s.status.cfgValid = true → lOf s ≤ argn s 0 → argn s 0 ≤ mMaxOf s.build →
      (∀ r < argn s 0, Valued s.mem (aRow s r) (lOf s) ∧ Valued s.mem (dRow s r) (tOf s)) →
      (∀ out, solve s.build (dimsOf s) (matrixOf s (argn s 0)) (rhsOf s (argn s 0)) = .ok out →
        ∃ m h, exec .piSolve s = .next
          { s with
            mem := m, hostCopy := h, mRows := s.args[0], status := { doneStatus s.status with cValid := true } } ∧
          SolvedInto s (argn s 0) out m ∧ CopyCleared s (argn s 0) h) ∧
      ∀ e, solve s.build (dimsOf s) (matrixOf s (argn s 0)) (rhsOf s (argn s 0)) = .error e →
        ∃ m h, exec .piSolve s = .next
          { s with
            mem := m, hostCopy := h, mRows := s.args[0]
            status := failStatus { s.status with cValid := false } e.code } ∧
          ScratchCleared s (argn s 0) m ∧ CopyCleared s (argn s 0) h)

/-! ### The block codec -/

/-- BLK_ENCODE: NOT_CONFIGURED, else M_ROWS = L and the solution of the encoding system in SYM_C or the decoding failure, as
PI_SOLVE leaves them (45_block_codec.md R270, R274; 44_pi_solver.md R245, R246). -/
def Obligations.BlkEncodeResult : Prop :=
  EncodedN 0x40 .blkEncode ∧
  ∀ s : State,
    (s.status.cfgValid = false → exec .blkEncode s = .next (failState s 0x02)) ∧
    (MachineOk s → s.status.cfgValid = true → (∀ e < kOf s, Valued s.mem (srcRow s e) (tOf s)) →
      let src := (List.range (kOf s)).map fun e => symbolAt s.mem (srcRow s e) (tOf s)
      (∀ out, solve s.build (dimsOf s) (constraintMatrix s.build s.cfg) (encodeD s src) = .ok out →
        ∃ m h, exec .blkEncode s = .next
          { s with mem := m, hostCopy := h, mRows := s.cfg.l, status := { doneStatus s.status with cValid := true } } ∧
          SolvedInto s (lOf s) out m ∧ CopyCleared s (lOf s) h) ∧
      ∀ e, solve s.build (dimsOf s) (constraintMatrix s.build s.cfg) (encodeD s src) = .error e →
        ∃ m h, exec .blkEncode s = .next
          { s with
            mem := m, hostCopy := h, mRows := s.cfg.l
            status := failStatus { s.status with cValid := false } e.code } ∧
          ScratchCleared s (lOf s) m ∧ CopyCleared s (lOf s) h)

/-- The code is systematic: after a successful BLK_ENCODE, `enc(X)` is source symbol X for X < K and zero for K <= X < K'
(43_lt_encoder.md R212; 45_block_codec.md R276). -/
def Obligations.EncodingIsSystematic : Prop :=
  ∀ s t : State, MachineOk s → s.status.cfgValid = true → s.status.err = false → exec .blkEncode s = .next t →
    t.status.err = false → ∀ x < s.cfg.kp.toNat,
      t.enc x = some (if x < kOf s then symbolAt s.mem (srcRow s x) (tOf s) else List.replicate (tOf s) 0)

/-- BLK_SYMBOL: its failures in their order, a source symbol copied, a repair symbol encoded from SYM_C with its ISI
(45_block_codec.md R271, R276). -/
def Obligations.BlkSymbolResult : Prop :=
  EncodedN 0x41 .blkSymbol ∧
  ∀ s : State,
    (s.status.cfgValid = false → exec .blkSymbol s = .next (failState s 0x02)) ∧
    (s.status.cfgValid = true → 2 ^ 24 ≤ argn s 0 → exec .blkSymbol s = .next (failState s 0x10)) ∧
    (s.status.cfgValid = true → argn s 0 < 2 ^ 24 → argn s 0 < kOf s → Valued s.mem (srcRow s (argn s 0)) (tOf s) →
      ∃ m, exec .blkSymbol s = .next { s with mem := m, status := doneStatus s.status } ∧
        StoresOnly s.mem m outRow (tOf s) fun k => val s.mem (srcRow s (argn s 0) + k)) ∧
    (s.status.cfgValid = true → argn s 0 < 2 ^ 24 → kOf s ≤ argn s 0 → s.status.cValid = false →
      exec .blkSymbol s = .next (failState s 0x05)) ∧
    (s.status.cfgValid = true → argn s 0 < 2 ^ 24 → kOf s ≤ argn s 0 → s.status.cValid = true →
      (∀ n ∈ indicesOf s.build s.cfg (isiRule s (argn s 0)), Valued s.mem (cRow s n) (tOf s)) →
      ∃ m, exec .blkSymbol s = .next { s with mem := m, status := doneStatus s.status } ∧
        StoresOnly s.mem m outRow (tOf s) fun k =>
          xorAll ((indicesOf s.build s.cfg (isiRule s (argn s 0))).map fun n => val s.mem (cRow s n + k)))

/-- BLK_DECODE's failures before the solve, in their order; and when every source symbol was received the source rows are
copied and nothing is solved (45_block_codec.md R280, R282). -/
def Obligations.BlkDecodeWithoutASolve : Prop :=
  (EncodedN 0x42 .blkDecode ∧
   ∀ s : State,
     (s.status.cfgValid = false → exec .blkDecode s = .next (failState s 0x02)) ∧
     (s.status.cfgValid = true → s.build.rxMax < argn s 0 → exec .blkDecode s = .next (failState s 0x04)) ∧
     (s.status.cfgValid = true → argn s 0 ≤ s.build.rxMax → Valued s.mem 0x000300000000 (4 * argn s 0) →
       ((∃ q < argn s 0, 2 ^ 24 ≤ esiAt s q) → exec .blkDecode s = .next (failState s 0x10)) ∧
       ((∀ q < argn s 0, esiAt s q < 2 ^ 24) → (repairsRule s (argn s 0)).length < (missingRule s (argn s 0)).length →
         exec .blkDecode s = .next { s with status := failStatus { s.status with cValid := false } 0x22 }))) ∧
  (∀ s : State, MachineOk s → s.status.cfgValid = true → argn s 0 ≤ s.build.rxMax → RxValued s (argn s 0) →
     (∀ q < argn s 0, esiAt s q < 2 ^ 24) → (∀ e < kOf s, ∃ q < argn s 0, esiAt s q = e) →
     ∃ m, exec .blkDecode s = .next
         { s with
           mem := m, res := (s.res.set 0 0).set 1 0, status := { doneStatus s.status with cValid := false } } ∧
       (∀ e < kOf s, ∀ q, IsFirst s (argn s 0) e q → ∀ k < tOf s, m.read (srcRow s e + k) = some (val s.mem (rxRow s q + k))) ∧
       ∀ a, (∀ e < kOf s, ∀ k < tOf s, a ≠ srcRow s e + k) → m.read a = s.mem.read a)

/-- BLK_DECODE when source symbols are missing and enough repair symbols were received: the augmented system is solved;
on success the missing symbols are encoded from SYM_C and the received ones copied (45_block_codec.md R280). -/
def Obligations.BlkDecodeFullPath : Prop :=
  ∀ s : State, MachineOk s → s.status.cfgValid = true → argn s 0 ≤ s.build.rxMax → RxValued s (argn s 0) →
    (∀ q < argn s 0, esiAt s q < 2 ^ 24) →
    let n := argn s 0
    let missing := missingRule s n
    let repairs := repairsRule s n
    missing ≠ [] → missing.length ≤ repairs.length →
    let rows := lOf s + (repairs.length - missing.length)
    let a := (List.range rows).map (decodeRow s missing repairs)
    let d := (List.range rows).map (decodeSym s n missing repairs)
    (∀ out, solve s.build (dimsOf s) a d = .ok out →
      ∃ m m1 h, CopyCleared s rows h ∧ exec .blkDecode s = .next
          { s with
            mem := m, hostCopy := h, mRows := word rows, res := (s.res.set 0 (word missing.length)).set 1 (word rows)
            status := { doneStatus s.status with cValid := true } } ∧
        SolvedInto s rows out m1 ∧
        (∀ e < kOf s, ∀ q, IsFirst s n e q → ∀ k < tOf s, m.read (srcRow s e + k) = some (val s.mem (rxRow s q + k))) ∧
        (∀ e ∈ missing, ∀ k < tOf s, m.read (srcRow s e + k) =
          some (xorAll ((indicesOf s.build s.cfg e).map fun j => val m1 (cRow s j + k)))) ∧
        ∀ x, (∀ e < kOf s, ∀ k < tOf s, x ≠ srcRow s e + k) → m.read x = m1.read x) ∧
    ∀ e, solve s.build (dimsOf s) a d = .error e →
      ∃ m h, exec .blkDecode s = .next
          { s with
            mem := m, hostCopy := h, mRows := word rows
            status := failStatus { s.status with cValid := false } e.code } ∧
        ScratchCleared s rows m ∧ CopyCleared s rows h

/-- Decoding is right: when every received symbol is the one that BLK_SYMBOL gives after encoding the block, a successful
BLK_DECODE leaves the block in SYM_SRC and, where it solved, the same intermediate symbols in SYM_C (45_block_codec.md R281). -/
def Obligations.DecodingRecoversTheBlock : Prop :=
  ∀ (s t : State) (src c : List Symbol), MachineOk s → s.status.cfgValid = true → s.status.err = false →
    Symbols (kOf s) (tOf s) src → Symbols (lOf s) (tOf s) c →
    IsSolution s.build (constraintMatrix s.build s.cfg) (encodeD s src) c (tOf s) →
    RxValued s (argn s 0) →
    (∀ q < argn s 0, symbolAt s.mem (rxRow s q) (tOf s) =
      if esiAt s q < kOf s then src.getD (esiAt s q) [] else encOver s c (isiRule s (esiAt s q))) →
    exec .blkDecode s = .next t → t.status.err = false →
    (∀ e < kOf s, ∀ k < tOf s, t.mem.read (srcRow s e + k) = some ((src.getD e []).getD k 0)) ∧
    (t.status.cValid = true → ∀ n < lOf s, ∀ k < tOf s, t.mem.read (cRow s n + k) = some ((c.getD n []).getD k 0))
end

