-- ==== Sys2Proof/Laws/Build.lean ====
section
/-! SUPPORT. The default field tables are a field's, and the builds the model names are legal. -/

namespace Sys2Proof.Machine

set_option maxRecDepth 20000 in
/-- EXP_ROM and LOG_ROM of 40_gf256.md R107 and R108 are the tables of the field of the default polynomial. -/
theorem gfTablesOk_default : GfTablesOk gfPolyDefault gfExpRom gfLogRom := by decide +kernel

set_option maxRecDepth 20000 in
/-- The parameters of the stand-in build are legal. -/
theorem paramsOk_standIn : ParamsOk standInBuild := by decide +kernel

/-- The stand-in build is legal. -/
theorem buildOk_standIn : BuildOk standInBuild := ⟨paramsOk_standIn, gfTablesOk_default⟩

/-- The build that reset finds is legal, whatever the free build is. -/
theorem buildOk_reset : BuildOk resetBuild := by
  have h : ParamsOk (if ParamsOk Config.rawBuild then Config.rawBuild else standInBuild) := by
    split
    · assumption
    · exact paramsOk_standIn
  exact ⟨h, gfTablesOk_default⟩

end Sys2Proof.Machine
end

