-- ==== Sys2Proof/Laws/Memory.lean ====
section
/-! SUPPORT. The laws of the banks: read after write, the canonical form, and the byte order. -/

namespace Sys2Proof.Machine

@[simp] theorem Memory.read_nil (a : Nat) : Memory.read [] a = none := rfl

theorem Memory.read_cons (x : Host.Cell) (m : Memory) (a : Nat) :
    Memory.read (x :: m) a = if x.1 = a then some x.2 else Memory.read m a := rfl

/-- A read after a write: the stored byte at its address, the old byte everywhere else. -/
theorem Memory.read_write (m : Memory) (a : Nat) (v : Byte) (c : Nat) :
    (m.write a v).read c = if c = a then some v else m.read c := by
  induction m with
  | nil => simp [Memory.write, Memory.read_cons, eq_comm]
  | cons x m ih =>
    obtain ⟨x, w⟩ := x
    simp only [Memory.write]
    split
    · simp only [Memory.read_cons]
      split <;> simp_all [eq_comm]
    · split
      · subst_vars
        simp only [Memory.read_cons, eq_comm]
        split <;> simp_all
      · simp only [Memory.read_cons, ih]
        split
        · rename_i h
          subst h
          rw [if_neg (by omega)]
        · rfl

/-- A read after a store of bytes: the stored bytes in their range, the old byte everywhere else. -/
theorem Memory.read_writeBytes (m : Memory) (a : Nat) (vs : List Byte) (c : Nat) :
    (m.writeBytes a vs).read c = if a ≤ c ∧ c < a + vs.length then vs[c - a]? else m.read c := by
  induction vs generalizing m a with
  | nil => rw [if_neg (by simp)]; rfl
  | cons v vs ih =>
    simp only [Memory.writeBytes, ih, Memory.read_write, List.length_cons]
    by_cases h : c = a
    · subst h
      simp
    · by_cases h2 : a + 1 ≤ c ∧ c < a + 1 + vs.length
      · have e : c - a = (c - (a + 1)) + 1 := by omega
        rw [if_pos h2, if_pos (by omega), e]
        rfl
      · rw [if_neg h2, if_neg h, if_neg (by omega)]

theorem Memory.read_writeBytes_of_lt (m : Memory) (a : Nat) (vs : List Byte) (c : Nat) (h : c < a) :
    (m.writeBytes a vs).read c = m.read c := by
  rw [Memory.read_writeBytes, if_neg (by omega)]

theorem Memory.read_writeBytes_of_ge (m : Memory) (a : Nat) (vs : List Byte) (c : Nat) (h : a + vs.length ≤ c) :
    (m.writeBytes a vs).read c = m.read c := by
  rw [Memory.read_writeBytes, if_neg (by omega)]

/-- A read after a clear: no value where the predicate selects, the old byte elsewhere. -/
theorem Memory.read_clear (m : Memory) (p : Nat → Bool) (c : Nat) :
    (m.clear p).read c = if p c then none else m.read c := by
  induction m with
  | nil => simp [Memory.clear]
  | cons x m ih =>
    simp only [Memory.clear, List.filter_cons] at ih ⊢
    by_cases h : p x.1 = true
    · simp only [h, Bool.not_true, Bool.false_eq_true, if_false, ih, Memory.read_cons]
      split
      · rfl
      · rw [if_neg (fun e => by subst e; contradiction)]
    · simp only [h, Bool.not_false, if_true, Memory.read_cons, ih]
      by_cases e : x.1 = c
      · subst e
        simp [h]
      · simp [e]

/-- Every address of a written memory is the new one or an old one. -/
theorem Memory.mem_write {m : Memory} {a : Nat} {v : Byte} {x : Host.Cell} (h : x ∈ m.write a v) :
    x = (a, v) ∨ x ∈ m := by
  induction m with
  | nil => simpa [Memory.write] using h
  | cons y m ih =>
    obtain ⟨y, w⟩ := y
    simp only [Memory.write] at h
    split at h
    · simpa using h
    · split at h
      · rcases List.mem_cons.1 h with h | h
        · exact .inl h
        · exact .inr (List.mem_cons_of_mem _ h)
      · rcases List.mem_cons.1 h with h | h
        · exact .inr (h ▸ List.mem_cons_self)
        · exact (ih h).imp_right (List.mem_cons_of_mem _)

/-- Every cell of a memory after a store of bytes lies in the stored range or is an old one. -/
theorem Memory.mem_writeBytes {m : Memory} {a : Nat} {vs : List Byte} {x : Host.Cell} (h : x ∈ m.writeBytes a vs) :
    (a ≤ x.1 ∧ x.1 < a + vs.length) ∨ x ∈ m := by
  induction vs generalizing m a with
  | nil => exact .inr h
  | cons v vs ih =>
    simp only [List.length_cons]
    rcases ih h with h | h
    · exact .inl (by omega)
    · rcases Memory.mem_write h with h | h
      · subst h
        exact .inl (by simp)
      · exact .inr h

/-- A write keeps the canonical form. -/
theorem Memory.write_wf {m : Memory} (h : m.wf) (a : Nat) (v : Byte) : (m.write a v).wf := by
  induction m with
  | nil => simp [Memory.write]
  | cons x m ih =>
    obtain ⟨x, w⟩ := x
    have hx := List.pairwise_cons.1 h
    simp only [Memory.write]
    split
    · rename_i hlt
      refine List.pairwise_cons.2 ⟨fun y hy => ?_, h⟩
      rcases List.mem_cons.1 hy with rfl | hy
      · exact hlt
      · exact Nat.lt_trans hlt (hx.1 y hy)
    · split
      · subst_vars
        exact List.pairwise_cons.2 ⟨hx.1, hx.2⟩
      · refine List.pairwise_cons.2 ⟨fun y hy => ?_, ih hx.2⟩
        rcases Memory.mem_write hy with rfl | hy
        · show x < a
          omega
        · exact hx.1 y hy

/-- A store of bytes keeps the canonical form. -/
theorem Memory.writeBytes_wf {m : Memory} (h : m.wf) (a : Nat) (vs : List Byte) : (m.writeBytes a vs).wf := by
  induction vs generalizing m a with
  | nil => exact h
  | cons v vs ih => exact ih (Memory.write_wf h a v) (a + 1)

/-- A clear keeps the canonical form. -/
theorem Memory.clear_wf {m : Memory} (h : m.wf) (p : Nat → Bool) : (m.clear p).wf := List.Pairwise.filter _ h

/-- The banks at reset are in canonical form. -/
theorem reset_mem_wf : State.reset.mem.wf := List.Pairwise.nil

/-- Reading n bytes answers n bytes. -/
theorem Memory.length_readBytes {m : Memory} {a n : Nat} {vs : List Byte} (h : m.readBytes a n = some vs) :
    vs.length = n := by
  induction n generalizing a vs with
  | zero => simp only [Memory.readBytes, Option.some.injEq] at h; subst h; rfl
  | succ n ih =>
    simp only [Memory.readBytes] at h
    split at h
    · cases h
    · simp only [Option.map_eq_some_iff] at h
      obtain ⟨ws, hw, rfl⟩ := h
      simp [ih hw]

/-- What reading n bytes answers: the byte at each of the n addresses. -/
theorem Memory.getElem_readBytes {m : Memory} {a n : Nat} {vs : List Byte} (h : m.readBytes a n = some vs) {k : Nat}
    (hk : k < n) : m.read (a + k) = vs[k]? := by
  induction n generalizing a vs k with
  | zero => omega
  | succ n ih =>
    simp only [Memory.readBytes] at h
    split at h
    · cases h
    · rename_i v hv
      simp only [Option.map_eq_some_iff] at h
      obtain ⟨ws, hw, rfl⟩ := h
      cases k with
      | zero => simpa using hv
      | succ k =>
        have := ih hw (k := k) (by omega)
        rw [show a + (k + 1) = a + 1 + k by omega, this]
        rfl

/-- Reading n bytes answers when every one of them holds a value. -/
theorem Memory.readBytes_isSome {m : Memory} {a n : Nat} (h : ∀ k < n, (m.read (a + k)).isSome) :
    ∃ vs, m.readBytes a n = some vs := by
  induction n generalizing a with
  | zero => exact ⟨[], rfl⟩
  | succ n ih =>
    obtain ⟨v, hv⟩ := Option.isSome_iff_exists.1 (h 0 (by omega))
    obtain ⟨vs, hvs⟩ := ih (a := a + 1) (fun k hk => by
      have := h (k + 1) (by omega)
      rwa [show a + 1 + k = a + (k + 1) by omega])
    exact ⟨v :: vs, by simp [Memory.readBytes, hvs, show m.read a = some v from hv]⟩

@[simp] theorem length_bytesOfNat (n v : Nat) : (bytesOfNat n v).length = n := by
  induction n generalizing v with
  | zero => rfl
  | succ n ih => simp [bytesOfNat, ih]

/-- Little-endian bytes of a value give the value back, modulo the width. -/
theorem natOfBytes_bytesOfNat (n v : Nat) : natOfBytes (bytesOfNat n v) = v % 256 ^ n := by
  induction n generalizing v with
  | zero => simp [bytesOfNat, natOfBytes, Nat.mod_one]
  | succ n ih =>
    simp only [bytesOfNat, natOfBytes, ih, BitVec.toNat_ofNat]
    rw [show (256 : Nat) ^ (n + 1) = 256 * 256 ^ n by rw [Nat.pow_succ, Nat.mul_comm], Nat.mod_mul]

end Sys2Proof.Machine
end

