-- ==== Sys2Proof/Laws/State.lean ====
section
/-! SUPPORT. The small lemmas of the state's updates: what each update leaves in each field. -/

namespace Sys2Proof.Machine

@[simp] theorem State.setRes_build (s : State) (n : Fin 8) (v : Word) : (s.setRes n v).build = s.build := rfl
@[simp] theorem State.setRes_cmd (s : State) (n : Fin 8) (v : Word) : (s.setRes n v).cmd = s.cmd := rfl
@[simp] theorem State.setRes_status (s : State) (n : Fin 8) (v : Word) : (s.setRes n v).status = s.status := rfl
@[simp] theorem State.setRes_args (s : State) (n : Fin 8) (v : Word) : (s.setRes n v).args = s.args := rfl
@[simp] theorem State.setRes_res (s : State) (n : Fin 8) (v : Word) : (s.setRes n v).res = s.res.set n v := rfl
@[simp] theorem State.setRes_cfg (s : State) (n : Fin 8) (v : Word) : (s.setRes n v).cfg = s.cfg := rfl
@[simp] theorem State.setRes_mRows (s : State) (n : Fin 8) (v : Word) : (s.setRes n v).mRows = s.mRows := rfl
@[simp] theorem State.setRes_mem (s : State) (n : Fin 8) (v : Word) : (s.setRes n v).mem = s.mem := rfl
@[simp] theorem State.setRes_host (s : State) (n : Fin 8) (v : Word) : (s.setRes n v).host = s.host := rfl
@[simp] theorem State.setRes_hostCopy (s : State) (n : Fin 8) (v : Word) : (s.setRes n v).hostCopy = s.hostCopy := rfl
@[simp] theorem State.setRes_bus (s : State) (n : Fin 8) (v : Word) : (s.setRes n v).bus = s.bus := rfl
@[simp] theorem State.setRes_freeEpoch (s : State) (n : Fin 8) (v : Word) : (s.setRes n v).freeEpoch = s.freeEpoch := rfl

@[simp] theorem State.setMRows_build (s : State) (m : Nat) : (s.setMRows m).build = s.build := rfl
@[simp] theorem State.setMRows_cmd (s : State) (m : Nat) : (s.setMRows m).cmd = s.cmd := rfl
@[simp] theorem State.setMRows_status (s : State) (m : Nat) : (s.setMRows m).status = s.status := rfl
@[simp] theorem State.setMRows_args (s : State) (m : Nat) : (s.setMRows m).args = s.args := rfl
@[simp] theorem State.setMRows_res (s : State) (m : Nat) : (s.setMRows m).res = s.res := rfl
@[simp] theorem State.setMRows_cfg (s : State) (m : Nat) : (s.setMRows m).cfg = s.cfg := rfl
@[simp] theorem State.setMRows_mRows (s : State) (m : Nat) : (s.setMRows m).mRows = word m := rfl
@[simp] theorem State.setMRows_mem (s : State) (m : Nat) : (s.setMRows m).mem = s.mem := rfl
@[simp] theorem State.setMRows_host (s : State) (m : Nat) : (s.setMRows m).host = s.host := rfl
@[simp] theorem State.setMRows_hostCopy (s : State) (m : Nat) : (s.setMRows m).hostCopy = s.hostCopy := rfl
@[simp] theorem State.setMRows_bus (s : State) (m : Nat) : (s.setMRows m).bus = s.bus := rfl
@[simp] theorem State.setMRows_freeEpoch (s : State) (m : Nat) : (s.setMRows m).freeEpoch = s.freeEpoch := rfl

@[simp] theorem State.setCValid_build (s : State) (v : Bool) : (s.setCValid v).build = s.build := rfl
@[simp] theorem State.setCValid_cmd (s : State) (v : Bool) : (s.setCValid v).cmd = s.cmd := rfl
@[simp] theorem State.setCValid_status (s : State) (v : Bool) : (s.setCValid v).status = s.status.setCValid v := rfl
@[simp] theorem State.setCValid_args (s : State) (v : Bool) : (s.setCValid v).args = s.args := rfl
@[simp] theorem State.setCValid_res (s : State) (v : Bool) : (s.setCValid v).res = s.res := rfl
@[simp] theorem State.setCValid_cfg (s : State) (v : Bool) : (s.setCValid v).cfg = s.cfg := rfl
@[simp] theorem State.setCValid_mRows (s : State) (v : Bool) : (s.setCValid v).mRows = s.mRows := rfl
@[simp] theorem State.setCValid_mem (s : State) (v : Bool) : (s.setCValid v).mem = s.mem := rfl
@[simp] theorem State.setCValid_host (s : State) (v : Bool) : (s.setCValid v).host = s.host := rfl
@[simp] theorem State.setCValid_hostCopy (s : State) (v : Bool) : (s.setCValid v).hostCopy = s.hostCopy := rfl
@[simp] theorem State.setCValid_bus (s : State) (v : Bool) : (s.setCValid v).bus = s.bus := rfl
@[simp] theorem State.setCValid_freeEpoch (s : State) (v : Bool) : (s.setCValid v).freeEpoch = s.freeEpoch := rfl

@[simp] theorem State.setCfgValid_build (s : State) (v : Bool) : (s.setCfgValid v).build = s.build := rfl
@[simp] theorem State.setCfgValid_cmd (s : State) (v : Bool) : (s.setCfgValid v).cmd = s.cmd := rfl
@[simp] theorem State.setCfgValid_status (s : State) (v : Bool) : (s.setCfgValid v).status = s.status.setCfgValid v := rfl
@[simp] theorem State.setCfgValid_args (s : State) (v : Bool) : (s.setCfgValid v).args = s.args := rfl
@[simp] theorem State.setCfgValid_res (s : State) (v : Bool) : (s.setCfgValid v).res = s.res := rfl
@[simp] theorem State.setCfgValid_cfg (s : State) (v : Bool) : (s.setCfgValid v).cfg = s.cfg := rfl
@[simp] theorem State.setCfgValid_mRows (s : State) (v : Bool) : (s.setCfgValid v).mRows = s.mRows := rfl
@[simp] theorem State.setCfgValid_mem (s : State) (v : Bool) : (s.setCfgValid v).mem = s.mem := rfl
@[simp] theorem State.setCfgValid_host (s : State) (v : Bool) : (s.setCfgValid v).host = s.host := rfl
@[simp] theorem State.setCfgValid_hostCopy (s : State) (v : Bool) : (s.setCfgValid v).hostCopy = s.hostCopy := rfl
@[simp] theorem State.setCfgValid_bus (s : State) (v : Bool) : (s.setCfgValid v).bus = s.bus := rfl
@[simp] theorem State.setCfgValid_freeEpoch (s : State) (v : Bool) : (s.setCfgValid v).freeEpoch = s.freeEpoch := rfl

@[simp] theorem State.setMem_build (s : State) (m : Memory) : (s.setMem m).build = s.build := rfl
@[simp] theorem State.setMem_cmd (s : State) (m : Memory) : (s.setMem m).cmd = s.cmd := rfl
@[simp] theorem State.setMem_status (s : State) (m : Memory) : (s.setMem m).status = s.status := rfl
@[simp] theorem State.setMem_args (s : State) (m : Memory) : (s.setMem m).args = s.args := rfl
@[simp] theorem State.setMem_res (s : State) (m : Memory) : (s.setMem m).res = s.res := rfl
@[simp] theorem State.setMem_cfg (s : State) (m : Memory) : (s.setMem m).cfg = s.cfg := rfl
@[simp] theorem State.setMem_mRows (s : State) (m : Memory) : (s.setMem m).mRows = s.mRows := rfl
@[simp] theorem State.setMem_mem (s : State) (m : Memory) : (s.setMem m).mem = m := rfl
@[simp] theorem State.setMem_host (s : State) (m : Memory) : (s.setMem m).host = s.host := rfl
@[simp] theorem State.setMem_hostCopy (s : State) (m : Memory) : (s.setMem m).hostCopy = s.hostCopy := rfl
@[simp] theorem State.setMem_bus (s : State) (m : Memory) : (s.setMem m).bus = s.bus := rfl
@[simp] theorem State.setMem_freeEpoch (s : State) (m : Memory) : (s.setMem m).freeEpoch = s.freeEpoch := rfl

@[simp] theorem State.raiseFail_build (s : State) (c : FailCode) : (s.raiseFail c).build = s.build := rfl
@[simp] theorem State.raiseFail_cmd (s : State) (c : FailCode) : (s.raiseFail c).cmd = s.cmd := rfl
@[simp] theorem State.raiseFail_status (s : State) (c : FailCode) : (s.raiseFail c).status = s.status.fail c := rfl
@[simp] theorem State.raiseFail_args (s : State) (c : FailCode) : (s.raiseFail c).args = s.args := rfl
@[simp] theorem State.raiseFail_res (s : State) (c : FailCode) : (s.raiseFail c).res = s.res := rfl
@[simp] theorem State.raiseFail_cfg (s : State) (c : FailCode) : (s.raiseFail c).cfg = s.cfg := rfl
@[simp] theorem State.raiseFail_mRows (s : State) (c : FailCode) : (s.raiseFail c).mRows = s.mRows := rfl
@[simp] theorem State.raiseFail_mem (s : State) (c : FailCode) : (s.raiseFail c).mem = s.mem := rfl
@[simp] theorem State.raiseFail_host (s : State) (c : FailCode) : (s.raiseFail c).host = s.host := rfl
@[simp] theorem State.raiseFail_hostCopy (s : State) (c : FailCode) : (s.raiseFail c).hostCopy = s.hostCopy := rfl
@[simp] theorem State.raiseFail_bus (s : State) (c : FailCode) : (s.raiseFail c).bus = s.bus := rfl
@[simp] theorem State.raiseFail_freeEpoch (s : State) (c : FailCode) : (s.raiseFail c).freeEpoch = s.freeEpoch := rfl

@[simp] theorem State.complete_build (s : State) : (s.complete).build = s.build := rfl
@[simp] theorem State.complete_cmd (s : State) : (s.complete).cmd = s.cmd := rfl
@[simp] theorem State.complete_status (s : State) : (s.complete).status = s.status.complete := rfl
@[simp] theorem State.complete_args (s : State) : (s.complete).args = s.args := rfl
@[simp] theorem State.complete_res (s : State) : (s.complete).res = s.res := rfl
@[simp] theorem State.complete_cfg (s : State) : (s.complete).cfg = s.cfg := rfl
@[simp] theorem State.complete_mRows (s : State) : (s.complete).mRows = s.mRows := rfl
@[simp] theorem State.complete_mem (s : State) : (s.complete).mem = s.mem := rfl
@[simp] theorem State.complete_host (s : State) : (s.complete).host = s.host := rfl
@[simp] theorem State.complete_hostCopy (s : State) : (s.complete).hostCopy = s.hostCopy := rfl
@[simp] theorem State.complete_bus (s : State) : (s.complete).bus = s.bus := rfl
@[simp] theorem State.complete_freeEpoch (s : State) : (s.complete).freeEpoch = s.freeEpoch := rfl

@[simp] theorem State.issue_build (s : State) (w : Word) : (s.issue w).build = s.build := rfl
@[simp] theorem State.issue_cmd (s : State) (w : Word) : (s.issue w).cmd = w := rfl
@[simp] theorem State.issue_status (s : State) (w : Word) : (s.issue w).status = s.status.issue := rfl
@[simp] theorem State.issue_args (s : State) (w : Word) : (s.issue w).args = s.args := rfl
@[simp] theorem State.issue_res (s : State) (w : Word) : (s.issue w).res = s.res := rfl
@[simp] theorem State.issue_cfg (s : State) (w : Word) : (s.issue w).cfg = s.cfg := rfl
@[simp] theorem State.issue_mRows (s : State) (w : Word) : (s.issue w).mRows = s.mRows := rfl
@[simp] theorem State.issue_mem (s : State) (w : Word) : (s.issue w).mem = s.mem := rfl
@[simp] theorem State.issue_host (s : State) (w : Word) : (s.issue w).host = s.host := rfl
@[simp] theorem State.issue_hostCopy (s : State) (w : Word) : (s.issue w).hostCopy = s.hostCopy := rfl
@[simp] theorem State.issue_bus (s : State) (w : Word) : (s.issue w).bus = s.bus := rfl
@[simp] theorem State.issue_freeEpoch (s : State) (w : Word) : (s.issue w).freeEpoch = s.freeEpoch + 1 := rfl

@[simp] theorem State.beginSolve_build (s : State) (m : Nat) : (s.beginSolve m).build = s.build := rfl
@[simp] theorem State.beginSolve_cmd (s : State) (m : Nat) : (s.beginSolve m).cmd = s.cmd := rfl
@[simp] theorem State.beginSolve_status (s : State) (m : Nat) : (s.beginSolve m).status = s.status.setCValid false := rfl
@[simp] theorem State.beginSolve_args (s : State) (m : Nat) : (s.beginSolve m).args = s.args := rfl
@[simp] theorem State.beginSolve_res (s : State) (m : Nat) : (s.beginSolve m).res = s.res := rfl
@[simp] theorem State.beginSolve_cfg (s : State) (m : Nat) : (s.beginSolve m).cfg = s.cfg := rfl
@[simp] theorem State.beginSolve_mRows (s : State) (m : Nat) : (s.beginSolve m).mRows = word m := rfl
@[simp] theorem State.beginSolve_mem (s : State) (m : Nat) : (s.beginSolve m).mem = s.mem := rfl
@[simp] theorem State.beginSolve_host (s : State) (m : Nat) : (s.beginSolve m).host = s.host := rfl
@[simp] theorem State.beginSolve_hostCopy (s : State) (m : Nat) : (s.beginSolve m).hostCopy = s.hostCopy := rfl
@[simp] theorem State.beginSolve_bus (s : State) (m : Nat) : (s.beginSolve m).bus = s.bus := rfl
@[simp] theorem State.beginSolve_freeEpoch (s : State) (m : Nat) : (s.beginSolve m).freeEpoch = s.freeEpoch := rfl

@[simp] theorem State.writeSymbol_build (s : State) (a : Nat) (v : Symbol) : (s.writeSymbol a v).build = s.build := rfl
@[simp] theorem State.writeSymbol_cmd (s : State) (a : Nat) (v : Symbol) : (s.writeSymbol a v).cmd = s.cmd := rfl
@[simp] theorem State.writeSymbol_status (s : State) (a : Nat) (v : Symbol) : (s.writeSymbol a v).status = s.status := rfl
@[simp] theorem State.writeSymbol_args (s : State) (a : Nat) (v : Symbol) : (s.writeSymbol a v).args = s.args := rfl
@[simp] theorem State.writeSymbol_res (s : State) (a : Nat) (v : Symbol) : (s.writeSymbol a v).res = s.res := rfl
@[simp] theorem State.writeSymbol_cfg (s : State) (a : Nat) (v : Symbol) : (s.writeSymbol a v).cfg = s.cfg := rfl
@[simp] theorem State.writeSymbol_mRows (s : State) (a : Nat) (v : Symbol) : (s.writeSymbol a v).mRows = s.mRows := rfl
@[simp] theorem State.writeSymbol_mem (s : State) (a : Nat) (v : Symbol) : (s.writeSymbol a v).mem = s.mem.writeBytes a v := rfl
@[simp] theorem State.writeSymbol_host (s : State) (a : Nat) (v : Symbol) : (s.writeSymbol a v).host = s.host := rfl
@[simp] theorem State.writeSymbol_hostCopy (s : State) (a : Nat) (v : Symbol) : (s.writeSymbol a v).hostCopy = s.hostCopy := rfl
@[simp] theorem State.writeSymbol_bus (s : State) (a : Nat) (v : Symbol) : (s.writeSymbol a v).bus = s.bus := rfl
@[simp] theorem State.writeSymbol_freeEpoch (s : State) (a : Nat) (v : Symbol) : (s.writeSymbol a v).freeEpoch = s.freeEpoch := rfl

@[simp] theorem State.writeSymRow_build (s : State) (r : Region) (row : Nat) (v : Symbol) : (s.writeSymRow r row v).build = s.build := rfl
@[simp] theorem State.writeSymRow_cmd (s : State) (r : Region) (row : Nat) (v : Symbol) : (s.writeSymRow r row v).cmd = s.cmd := rfl
@[simp] theorem State.writeSymRow_status (s : State) (r : Region) (row : Nat) (v : Symbol) : (s.writeSymRow r row v).status = s.status := rfl
@[simp] theorem State.writeSymRow_args (s : State) (r : Region) (row : Nat) (v : Symbol) : (s.writeSymRow r row v).args = s.args := rfl
@[simp] theorem State.writeSymRow_res (s : State) (r : Region) (row : Nat) (v : Symbol) : (s.writeSymRow r row v).res = s.res := rfl
@[simp] theorem State.writeSymRow_cfg (s : State) (r : Region) (row : Nat) (v : Symbol) : (s.writeSymRow r row v).cfg = s.cfg := rfl
@[simp] theorem State.writeSymRow_mRows (s : State) (r : Region) (row : Nat) (v : Symbol) : (s.writeSymRow r row v).mRows = s.mRows := rfl
@[simp] theorem State.writeSymRow_mem (s : State) (r : Region) (row : Nat) (v : Symbol) : (s.writeSymRow r row v).mem = s.mem.writeBytes (symRow s.build r row) v := rfl
@[simp] theorem State.writeSymRow_host (s : State) (r : Region) (row : Nat) (v : Symbol) : (s.writeSymRow r row v).host = s.host := rfl
@[simp] theorem State.writeSymRow_hostCopy (s : State) (r : Region) (row : Nat) (v : Symbol) : (s.writeSymRow r row v).hostCopy = s.hostCopy := rfl
@[simp] theorem State.writeSymRow_bus (s : State) (r : Region) (row : Nat) (v : Symbol) : (s.writeSymRow r row v).bus = s.bus := rfl
@[simp] theorem State.writeSymRow_freeEpoch (s : State) (r : Region) (row : Nat) (v : Symbol) : (s.writeSymRow r row v).freeEpoch = s.freeEpoch := rfl

@[simp] theorem State.clearScratch_build (s : State) (m : Nat) : (s.clearScratch m).build = s.build := rfl
@[simp] theorem State.clearScratch_cmd (s : State) (m : Nat) : (s.clearScratch m).cmd = s.cmd := rfl
@[simp] theorem State.clearScratch_status (s : State) (m : Nat) : (s.clearScratch m).status = s.status := rfl
@[simp] theorem State.clearScratch_args (s : State) (m : Nat) : (s.clearScratch m).args = s.args := rfl
@[simp] theorem State.clearScratch_res (s : State) (m : Nat) : (s.clearScratch m).res = s.res := rfl
@[simp] theorem State.clearScratch_cfg (s : State) (m : Nat) : (s.clearScratch m).cfg = s.cfg := rfl
@[simp] theorem State.clearScratch_mRows (s : State) (m : Nat) : (s.clearScratch m).mRows = s.mRows := rfl
@[simp] theorem State.clearScratch_mem (s : State) (m : Nat) : (s.clearScratch m).mem = s.mem.clear (s.inScratch m) := rfl
@[simp] theorem State.clearScratch_host (s : State) (m : Nat) : (s.clearScratch m).host = s.host := rfl
@[simp] theorem State.clearScratch_hostCopy (s : State) (m : Nat) : (s.clearScratch m).hostCopy = s.hostCopy.clear (s.inScratch m) := rfl
@[simp] theorem State.clearScratch_bus (s : State) (m : Nat) : (s.clearScratch m).bus = s.bus := rfl
@[simp] theorem State.clearScratch_freeEpoch (s : State) (m : Nat) : (s.clearScratch m).freeEpoch = s.freeEpoch := rfl

@[simp] theorem State.refuseWrite_build (s : State) : (s.refuseWrite).build = s.build := rfl
@[simp] theorem State.refuseWrite_cmd (s : State) : (s.refuseWrite).cmd = s.cmd := rfl
@[simp] theorem State.refuseWrite_status (s : State) : (s.refuseWrite).status = s.status.refuse := rfl
@[simp] theorem State.refuseWrite_args (s : State) : (s.refuseWrite).args = s.args := rfl
@[simp] theorem State.refuseWrite_res (s : State) : (s.refuseWrite).res = s.res := rfl
@[simp] theorem State.refuseWrite_cfg (s : State) : (s.refuseWrite).cfg = s.cfg := rfl
@[simp] theorem State.refuseWrite_mRows (s : State) : (s.refuseWrite).mRows = s.mRows := rfl
@[simp] theorem State.refuseWrite_mem (s : State) : (s.refuseWrite).mem = s.mem := rfl
@[simp] theorem State.refuseWrite_host (s : State) : (s.refuseWrite).host = s.host := rfl
@[simp] theorem State.refuseWrite_hostCopy (s : State) : (s.refuseWrite).hostCopy = s.hostCopy := rfl
@[simp] theorem State.refuseWrite_bus (s : State) : (s.refuseWrite).bus = .refusedWrite := rfl
@[simp] theorem State.refuseWrite_freeEpoch (s : State) : (s.refuseWrite).freeEpoch = s.freeEpoch := rfl

@[simp] theorem State.afterReset_build (s : State) : (s.afterReset).build = s.build := rfl
@[simp] theorem State.afterReset_cmd (s : State) : (s.afterReset).cmd = 0 := rfl
@[simp] theorem State.afterReset_status (s : State) : (s.afterReset).status = Status.reset := rfl
@[simp] theorem State.afterReset_args (s : State) : (s.afterReset).args = Vector.replicate 8 0 := rfl
@[simp] theorem State.afterReset_res (s : State) : (s.afterReset).res = Vector.replicate 8 0 := rfl
@[simp] theorem State.afterReset_cfg (s : State) : (s.afterReset).cfg = BlockParams.reset := rfl
@[simp] theorem State.afterReset_mRows (s : State) : (s.afterReset).mRows = 0 := rfl
@[simp] theorem State.afterReset_mem (s : State) : (s.afterReset).mem = [] := rfl
@[simp] theorem State.afterReset_host (s : State) : (s.afterReset).host = s.host := rfl
@[simp] theorem State.afterReset_hostCopy (s : State) : (s.afterReset).hostCopy = [] := rfl
@[simp] theorem State.afterReset_bus (s : State) : (s.afterReset).bus = .idle := rfl
@[simp] theorem State.afterReset_freeEpoch (s : State) : (s.afterReset).freeEpoch = s.freeEpoch + 1 := rfl

@[simp] theorem Status.issue_busy (f : Status) : (f.issue).busy = true := rfl
@[simp] theorem Status.issue_done (f : Status) : (f.issue).done = false := rfl
@[simp] theorem Status.issue_err (f : Status) : (f.issue).err = f.err := rfl
@[simp] theorem Status.issue_ovr (f : Status) : (f.issue).ovr = f.ovr := rfl
@[simp] theorem Status.issue_cfgValid (f : Status) : (f.issue).cfgValid = f.cfgValid := rfl
@[simp] theorem Status.issue_cValid (f : Status) : (f.issue).cValid = f.cValid := rfl
@[simp] theorem Status.issue_errCode (f : Status) : (f.issue).errCode = f.errCode := rfl

@[simp] theorem Status.complete_busy (f : Status) : (f.complete).busy = false := rfl
@[simp] theorem Status.complete_done (f : Status) : (f.complete).done = true := rfl
@[simp] theorem Status.complete_err (f : Status) : (f.complete).err = f.err := rfl
@[simp] theorem Status.complete_ovr (f : Status) : (f.complete).ovr = f.ovr := rfl
@[simp] theorem Status.complete_cfgValid (f : Status) : (f.complete).cfgValid = f.cfgValid := rfl
@[simp] theorem Status.complete_cValid (f : Status) : (f.complete).cValid = f.cValid := rfl
@[simp] theorem Status.complete_errCode (f : Status) : (f.complete).errCode = f.errCode := rfl

@[simp] theorem Status.fail_busy (f : Status) (c : FailCode) : (f.fail c).busy = false := rfl
@[simp] theorem Status.fail_done (f : Status) (c : FailCode) : (f.fail c).done = true := rfl
@[simp] theorem Status.fail_err (f : Status) (c : FailCode) : (f.fail c).err = true := rfl
@[simp] theorem Status.fail_ovr (f : Status) (c : FailCode) : (f.fail c).ovr = f.ovr := rfl
@[simp] theorem Status.fail_cfgValid (f : Status) (c : FailCode) : (f.fail c).cfgValid = f.cfgValid := rfl
@[simp] theorem Status.fail_cValid (f : Status) (c : FailCode) : (f.fail c).cValid = f.cValid := rfl
@[simp] theorem Status.fail_errCode (f : Status) (c : FailCode) : (f.fail c).errCode = c.code := rfl

@[simp] theorem Status.refuse_busy (f : Status) : (f.refuse).busy = f.busy := rfl
@[simp] theorem Status.refuse_done (f : Status) : (f.refuse).done = f.done := rfl
@[simp] theorem Status.refuse_err (f : Status) : (f.refuse).err = f.err := rfl
@[simp] theorem Status.refuse_ovr (f : Status) : (f.refuse).ovr = true := rfl
@[simp] theorem Status.refuse_cfgValid (f : Status) : (f.refuse).cfgValid = f.cfgValid := rfl
@[simp] theorem Status.refuse_cValid (f : Status) : (f.refuse).cValid = f.cValid := rfl
@[simp] theorem Status.refuse_errCode (f : Status) : (f.refuse).errCode = f.errCode := rfl

@[simp] theorem Status.setCfgValid_busy (f : Status) (v : Bool) : (f.setCfgValid v).busy = f.busy := rfl
@[simp] theorem Status.setCfgValid_done (f : Status) (v : Bool) : (f.setCfgValid v).done = f.done := rfl
@[simp] theorem Status.setCfgValid_err (f : Status) (v : Bool) : (f.setCfgValid v).err = f.err := rfl
@[simp] theorem Status.setCfgValid_ovr (f : Status) (v : Bool) : (f.setCfgValid v).ovr = f.ovr := rfl
@[simp] theorem Status.setCfgValid_cfgValid (f : Status) (v : Bool) : (f.setCfgValid v).cfgValid = v := rfl
@[simp] theorem Status.setCfgValid_cValid (f : Status) (v : Bool) : (f.setCfgValid v).cValid = f.cValid := rfl
@[simp] theorem Status.setCfgValid_errCode (f : Status) (v : Bool) : (f.setCfgValid v).errCode = f.errCode := rfl

@[simp] theorem Status.setCValid_busy (f : Status) (v : Bool) : (f.setCValid v).busy = f.busy := rfl
@[simp] theorem Status.setCValid_done (f : Status) (v : Bool) : (f.setCValid v).done = f.done := rfl
@[simp] theorem Status.setCValid_err (f : Status) (v : Bool) : (f.setCValid v).err = f.err := rfl
@[simp] theorem Status.setCValid_ovr (f : Status) (v : Bool) : (f.setCValid v).ovr = f.ovr := rfl
@[simp] theorem Status.setCValid_cfgValid (f : Status) (v : Bool) : (f.setCValid v).cfgValid = f.cfgValid := rfl
@[simp] theorem Status.setCValid_cValid (f : Status) (v : Bool) : (f.setCValid v).cValid = v := rfl
@[simp] theorem Status.setCValid_errCode (f : Status) (v : Bool) : (f.setCValid v).errCode = f.errCode := rfl

@[simp] theorem Status.writeOneToClear_busy (f : Status) (v : Word) : (f.writeOneToClear v).busy = f.busy := rfl
@[simp] theorem Status.writeOneToClear_done (f : Status) (v : Word) : (f.writeOneToClear v).done = (f.done && !v.getLsbD 1) := rfl
@[simp] theorem Status.writeOneToClear_err (f : Status) (v : Word) : (f.writeOneToClear v).err = (f.err && !v.getLsbD 2) := rfl
@[simp] theorem Status.writeOneToClear_ovr (f : Status) (v : Word) : (f.writeOneToClear v).ovr = (f.ovr && !v.getLsbD 3) := rfl
@[simp] theorem Status.writeOneToClear_cfgValid (f : Status) (v : Word) : (f.writeOneToClear v).cfgValid = f.cfgValid := rfl
@[simp] theorem Status.writeOneToClear_cValid (f : Status) (v : Word) : (f.writeOneToClear v).cValid = f.cValid := rfl
@[simp] theorem Status.writeOneToClear_errCode (f : Status) (v : Word) : (f.writeOneToClear v).errCode = if v.getLsbD 2 then 0x00#8 else f.errCode := rfl

@[simp] theorem State.writeSymRows_build (s : State) (r : Region) (l : List (Nat × Symbol)) : (s.writeSymRows r l).build = s.build := by
  induction l generalizing s with
  | nil => rfl
  | cons x l ih => exact ih (s.writeSymRow r x.1 x.2)

@[simp] theorem State.writeSymRows_cmd (s : State) (r : Region) (l : List (Nat × Symbol)) : (s.writeSymRows r l).cmd = s.cmd := by
  induction l generalizing s with
  | nil => rfl
  | cons x l ih => exact ih (s.writeSymRow r x.1 x.2)

@[simp] theorem State.writeSymRows_status (s : State) (r : Region) (l : List (Nat × Symbol)) : (s.writeSymRows r l).status = s.status := by
  induction l generalizing s with
  | nil => rfl
  | cons x l ih => exact ih (s.writeSymRow r x.1 x.2)

@[simp] theorem State.writeSymRows_args (s : State) (r : Region) (l : List (Nat × Symbol)) : (s.writeSymRows r l).args = s.args := by
  induction l generalizing s with
  | nil => rfl
  | cons x l ih => exact ih (s.writeSymRow r x.1 x.2)

@[simp] theorem State.writeSymRows_res (s : State) (r : Region) (l : List (Nat × Symbol)) : (s.writeSymRows r l).res = s.res := by
  induction l generalizing s with
  | nil => rfl
  | cons x l ih => exact ih (s.writeSymRow r x.1 x.2)

@[simp] theorem State.writeSymRows_cfg (s : State) (r : Region) (l : List (Nat × Symbol)) : (s.writeSymRows r l).cfg = s.cfg := by
  induction l generalizing s with
  | nil => rfl
  | cons x l ih => exact ih (s.writeSymRow r x.1 x.2)

@[simp] theorem State.writeSymRows_mRows (s : State) (r : Region) (l : List (Nat × Symbol)) : (s.writeSymRows r l).mRows = s.mRows := by
  induction l generalizing s with
  | nil => rfl
  | cons x l ih => exact ih (s.writeSymRow r x.1 x.2)

@[simp] theorem State.writeSymRows_host (s : State) (r : Region) (l : List (Nat × Symbol)) : (s.writeSymRows r l).host = s.host := by
  induction l generalizing s with
  | nil => rfl
  | cons x l ih => exact ih (s.writeSymRow r x.1 x.2)

@[simp] theorem State.writeSymRows_hostCopy (s : State) (r : Region) (l : List (Nat × Symbol)) : (s.writeSymRows r l).hostCopy = s.hostCopy := by
  induction l generalizing s with
  | nil => rfl
  | cons x l ih => exact ih (s.writeSymRow r x.1 x.2)

@[simp] theorem State.writeSymRows_bus (s : State) (r : Region) (l : List (Nat × Symbol)) : (s.writeSymRows r l).bus = s.bus := by
  induction l generalizing s with
  | nil => rfl
  | cons x l ih => exact ih (s.writeSymRow r x.1 x.2)

@[simp] theorem State.writeSymRows_freeEpoch (s : State) (r : Region) (l : List (Nat × Symbol)) : (s.writeSymRows r l).freeEpoch = s.freeEpoch := by
  induction l generalizing s with
  | nil => rfl
  | cons x l ih => exact ih (s.writeSymRow r x.1 x.2)

@[simp] theorem State.writeMatrix_build (s : State) (row : Nat) (l : List Row) : (s.writeMatrix row l).build = s.build := by
  induction l generalizing s row with
  | nil => rfl
  | cons v l ih => exact ih (s.setMem (s.mem.writeBytes (matRow s.build .matA row) v)) (row + 1)

@[simp] theorem State.writeMatrix_cmd (s : State) (row : Nat) (l : List Row) : (s.writeMatrix row l).cmd = s.cmd := by
  induction l generalizing s row with
  | nil => rfl
  | cons v l ih => exact ih (s.setMem (s.mem.writeBytes (matRow s.build .matA row) v)) (row + 1)

@[simp] theorem State.writeMatrix_status (s : State) (row : Nat) (l : List Row) : (s.writeMatrix row l).status = s.status := by
  induction l generalizing s row with
  | nil => rfl
  | cons v l ih => exact ih (s.setMem (s.mem.writeBytes (matRow s.build .matA row) v)) (row + 1)

@[simp] theorem State.writeMatrix_args (s : State) (row : Nat) (l : List Row) : (s.writeMatrix row l).args = s.args := by
  induction l generalizing s row with
  | nil => rfl
  | cons v l ih => exact ih (s.setMem (s.mem.writeBytes (matRow s.build .matA row) v)) (row + 1)

@[simp] theorem State.writeMatrix_res (s : State) (row : Nat) (l : List Row) : (s.writeMatrix row l).res = s.res := by
  induction l generalizing s row with
  | nil => rfl
  | cons v l ih => exact ih (s.setMem (s.mem.writeBytes (matRow s.build .matA row) v)) (row + 1)

@[simp] theorem State.writeMatrix_cfg (s : State) (row : Nat) (l : List Row) : (s.writeMatrix row l).cfg = s.cfg := by
  induction l generalizing s row with
  | nil => rfl
  | cons v l ih => exact ih (s.setMem (s.mem.writeBytes (matRow s.build .matA row) v)) (row + 1)

@[simp] theorem State.writeMatrix_mRows (s : State) (row : Nat) (l : List Row) : (s.writeMatrix row l).mRows = s.mRows := by
  induction l generalizing s row with
  | nil => rfl
  | cons v l ih => exact ih (s.setMem (s.mem.writeBytes (matRow s.build .matA row) v)) (row + 1)

@[simp] theorem State.writeMatrix_host (s : State) (row : Nat) (l : List Row) : (s.writeMatrix row l).host = s.host := by
  induction l generalizing s row with
  | nil => rfl
  | cons v l ih => exact ih (s.setMem (s.mem.writeBytes (matRow s.build .matA row) v)) (row + 1)

@[simp] theorem State.writeMatrix_hostCopy (s : State) (row : Nat) (l : List Row) : (s.writeMatrix row l).hostCopy = s.hostCopy := by
  induction l generalizing s row with
  | nil => rfl
  | cons v l ih => exact ih (s.setMem (s.mem.writeBytes (matRow s.build .matA row) v)) (row + 1)

@[simp] theorem State.writeMatrix_bus (s : State) (row : Nat) (l : List Row) : (s.writeMatrix row l).bus = s.bus := by
  induction l generalizing s row with
  | nil => rfl
  | cons v l ih => exact ih (s.setMem (s.mem.writeBytes (matRow s.build .matA row) v)) (row + 1)

@[simp] theorem State.writeMatrix_freeEpoch (s : State) (row : Nat) (l : List Row) : (s.writeMatrix row l).freeEpoch = s.freeEpoch := by
  induction l generalizing s row with
  | nil => rfl
  | cons v l ih => exact ih (s.setMem (s.mem.writeBytes (matRow s.build .matA row) v)) (row + 1)

@[simp] theorem State.endSolve_build (s : State) (m : Nat) (c : List (Nat × Symbol)) : (s.endSolve m c).build = s.build := by
  simp [State.endSolve]

@[simp] theorem State.endSolve_cmd (s : State) (m : Nat) (c : List (Nat × Symbol)) : (s.endSolve m c).cmd = s.cmd := by
  simp [State.endSolve]

@[simp] theorem State.endSolve_args (s : State) (m : Nat) (c : List (Nat × Symbol)) : (s.endSolve m c).args = s.args := by
  simp [State.endSolve]

@[simp] theorem State.endSolve_res (s : State) (m : Nat) (c : List (Nat × Symbol)) : (s.endSolve m c).res = s.res := by
  simp [State.endSolve]

@[simp] theorem State.endSolve_cfg (s : State) (m : Nat) (c : List (Nat × Symbol)) : (s.endSolve m c).cfg = s.cfg := by
  simp [State.endSolve]

@[simp] theorem State.endSolve_mRows (s : State) (m : Nat) (c : List (Nat × Symbol)) : (s.endSolve m c).mRows = s.mRows := by
  simp [State.endSolve]

@[simp] theorem State.endSolve_host (s : State) (m : Nat) (c : List (Nat × Symbol)) : (s.endSolve m c).host = s.host := by
  simp [State.endSolve]

@[simp] theorem State.endSolve_hostCopy (s : State) (m : Nat) (c : List (Nat × Symbol)) :
    (s.endSolve m c).hostCopy = s.hostCopy.clear (s.inScratch m) := by
  simp [State.endSolve]

@[simp] theorem State.endSolve_bus (s : State) (m : Nat) (c : List (Nat × Symbol)) : (s.endSolve m c).bus = s.bus := by
  simp [State.endSolve]

@[simp] theorem State.endSolve_freeEpoch (s : State) (m : Nat) (c : List (Nat × Symbol)) : (s.endSolve m c).freeEpoch = s.freeEpoch := by
  simp [State.endSolve]

@[simp] theorem State.endSolve_status (s : State) (m : Nat) (c : List (Nat × Symbol)) :
    (s.endSolve m c).status = s.status.setCValid true := by
  simp [State.endSolve]

@[simp] theorem State.endSolve_mem (s : State) (m : Nat) (c : List (Nat × Symbol)) :
    (s.endSolve m c).mem = ((s.clearScratch m).writeSymRows .symC c).mem := by
  simp [State.endSolve]

end Sys2Proof.Machine
end

