-- ==== Sys2Proof/Laws/Ops.lean ====
section
/-! SUPPORT. What each shared operation can do, said once: "if it answers next t, then one of these". -/

namespace Sys2Proof.Machine

variable {s t : State}

theorem finish_next (h : finish s = .next t) : t = s.complete := by
  simpa [finish, eq_comm] using h

theorem failWith_next {c : FailCode} (h : failWith s c = .next t) : t = s.raiseFail c := by
  simpa [failWith, eq_comm] using h

/-- A command that reads a bank goes on only with the value it read. -/
theorem orNoValue_next {α : Type} {o : Option α} {k : α → Out} (h : orNoValue o k = .next t) :
    ∃ v, o = some v ∧ k v = .next t := by
  cases o with
  | none => simp [orNoValue] at h
  | some v => exact ⟨v, rfl, h⟩

@[simp] theorem orNoValue_some {α : Type} (v : α) (k : α → Out) : orNoValue (some v) k = k v := rfl

@[simp] theorem orNoValue_none {α : Type} (k : α → Out) : orNoValue none k = .fault .noValue := rfl

/-- A command that needs a configured block either has one or fails with NOT_CONFIGURED. -/
theorem needConfig_next {k : Out} (h : needConfig s k = .next t) :
    (s.status.cfgValid = true ∧ k = .next t) ∨ (s.status.cfgValid = false ∧ t = s.raiseFail .notConfigured) := by
  unfold needConfig at h
  split at h
  · exact .inl ⟨by assumption, h⟩
  · exact .inr ⟨by simpa using ‹¬s.status.cfgValid = true›, failWith_next h⟩

theorem needConfig_of_valid (h : s.status.cfgValid = true) (k : Out) : needConfig s k = k := by simp [needConfig, h]

theorem needConfig_of_invalid (h : s.status.cfgValid = false) (k : Out) :
    needConfig s k = .next (s.raiseFail .notConfigured) := by simp [needConfig, h, failWith]

/-- What the solve of a system can do: fail with the scratch cleared, or go on with the solution stored. -/
theorem solveThen_next {m : Nat} {a : List Row} {d : List Symbol} {k : State → Out}
    (h : solveThen s m a d k = .next t) :
    (∃ c, solve s.build s.solveDims a d = .error c ∧ t = (s.clearScratch m).raiseFail c) ∨
    (∃ c, solve s.build s.solveDims a d = .ok c ∧ k (s.endSolve m c) = .next t) := by
  unfold solveThen at h
  split at h
  · exact .inl ⟨_, by assumption, failWith_next h⟩
  · exact .inr ⟨_, by assumption, h⟩

theorem solve_error {b : Build} {m : SolveDims} {a : List Row} {d : List Symbol} {c : FailCode}
    (h : solve b m a d = .error c) : c = .decodingFailurePh1 ∨ c = .decodingFailurePh2 := by
  unfold solve at h
  split at h
  · exact .inl (by simpa [eq_comm] using h)
  · split at h
    · exact .inr (by simpa [eq_comm] using h)
    · cases h

/-- The destination operand of a vector command: the bank, the configuration and the row are checked in this order. -/
theorem dstOperand_ok {db : BankCode} {a : Nat} (h : dstOperand db s = .ok a) :
    ∃ r, bankOf db = some r ∧ s.status.cfgValid = true ∧ s.arg 0 < bankRows s.build r ∧
      a = symRow s.build r (s.arg 0) := by
  unfold dstOperand at h
  split at h
  · cases h
  · rename_i r hr
    split at h
    · cases h
    · split at h
      · cases h
      · exact ⟨r, hr, by simpa using ‹¬(!s.status.cfgValid) = true›, by omega, by simpa [eq_comm] using h⟩

/-- The operands of a vector command with a source. -/
theorem dstSrcOperands_ok {db sb : BankCode} {a c : Nat} (h : dstSrcOperands db sb s = .ok (a, c)) :
    ∃ rd rs, bankOf db = some rd ∧ bankOf sb = some rs ∧ s.status.cfgValid = true ∧
      s.arg 0 < bankRows s.build rd ∧ s.arg 1 < bankRows s.build rs ∧
      a = symRow s.build rd (s.arg 0) ∧ c = symRow s.build rs (s.arg 1) := by
  unfold dstSrcOperands at h
  split at h
  · rename_i rd rs hd hs
    split at h
    · cases h
    · split at h
      · cases h
      · split at h
        · cases h
        · simp only [Except.ok.injEq, Prod.mk.injEq] at h
          exact ⟨rd, rs, hd, hs, by simpa using ‹¬(!s.status.cfgValid) = true›, by omega, by omega,
            h.1.symm, h.2.symm⟩
  · cases h
  · cases h

/-- A symbol bank is none of those that only CORE writes. -/
theorem bankOf_coreOnly {c : BankCode} {r : Region} (h : bankOf c = some r) : r.coreOnly = false := by
  unfold bankOf at h
  split at h <;> first | (cases h; rfl) | cases h

/-- The table row that a successful BLK_CONFIG finds. -/
theorem configRow_some {b : Build} {k n : Nat} {r : SitRow} (h : configRow b k n = some r) :
    0 < k ∧ k ≤ b.kMax ∧ 0 < n ∧ n ≤ b.tMax ∧ sitCeil b.sit k = some r.kp ∧ sitLookup b.sit r.kp = some r ∧
      rowAdmissible r = true ∧ r.kp + r.s + r.h ≤ b.lMax := by
  unfold configRow at h
  split at h
  · cases h
  · split at h
    · cases h
    · rename_i kp hkp
      split at h
      · cases h
      · rename_i q hq
        split at h
        · cases h
          have e : r.kp = kp := by simpa using List.find?_some hq
          refine ⟨by omega, by omega, by omega, by omega, e ▸ hkp, e ▸ hq, ?_, ?_⟩ <;> tauto
        · cases h

/-- Reading a symbol answers T bytes. -/
theorem State.length_readSymbol {a : Nat} {v : Symbol} (h : s.readSymbol a = some v) : v.length = s.symLen :=
  Memory.length_readBytes h

/-- Reading rows of a bank answers one symbol of T bytes for each. -/
theorem State.readSymRows_some {r : Region} {rows : List Nat} {vs : List Symbol} (h : s.readSymRows r rows = some vs) :
    vs.length = rows.length ∧ ∀ v ∈ vs, v.length = s.symLen := by
  induction rows generalizing vs with
  | nil =>
    simp only [State.readSymRows, Option.some.injEq] at h
    subst h
    simp
  | cons row rows ih =>
    simp only [State.readSymRows] at h
    split at h
    · cases h
    · rename_i v hv
      simp only [Option.map_eq_some_iff] at h
      obtain ⟨ws, hw, rfl⟩ := h
      obtain ⟨h1, h2⟩ := ih hw
      refine ⟨by simp [h1], fun x hx => ?_⟩
      rcases List.mem_cons.1 hx with rfl | hx
      · exact State.length_readSymbol hv
      · exact h2 x hx

/-- Storing rows of a bank keeps the canonical form. -/
theorem State.writeSymRows_wf (h : s.mem.wf) (r : Region) (l : List (Nat × Symbol)) : (s.writeSymRows r l).mem.wf := by
  induction l generalizing s with
  | nil => exact h
  | cons x l ih => exact ih (s := s.writeSymRow r x.1 x.2) (Memory.writeBytes_wf h _ _)

/-- Storing rows of MAT_A keeps the canonical form. -/
theorem State.writeMatrix_wf (h : s.mem.wf) (row : Nat) (l : List Row) : (s.writeMatrix row l).mem.wf := by
  induction l generalizing s row with
  | nil => exact h
  | cons v l ih =>
    exact ih (s := s.setMem (s.mem.writeBytes (matRow s.build .matA row) v)) (Memory.writeBytes_wf h _ _) (row + 1)

/-- A byte outside every stored row of a bank reads as before. -/
theorem State.read_writeSymRows {r : Region} {l : List (Nat × Symbol)} {a : Nat}
    (h : ∀ q ∈ l, ¬(symRow s.build r q.1 ≤ a ∧ a < symRow s.build r q.1 + q.2.length)) :
    (s.writeSymRows r l).mem.read a = s.mem.read a := by
  induction l generalizing s with
  | nil => rfl
  | cons x l ih =>
    have hx := h x List.mem_cons_self
    rw [State.writeSymRows, ih (s := s.writeSymRow r x.1 x.2) (fun q hq => h q (List.mem_cons_of_mem _ hq))]
    rw [State.writeSymRow_mem, Memory.read_writeBytes, if_neg hx]

/-- A byte outside every stored row of MAT_A reads as before. -/
theorem State.read_writeMatrix {row : Nat} {l : List Row} {a : Nat}
    (h : ∀ n v, l[n]? = some v →
      ¬(matRow s.build .matA (row + n) ≤ a ∧ a < matRow s.build .matA (row + n) + v.length)) :
    (s.writeMatrix row l).mem.read a = s.mem.read a := by
  induction l generalizing s row with
  | nil => rfl
  | cons v l ih =>
    rw [State.writeMatrix]
    rw [ih (s := s.setMem (s.mem.writeBytes (matRow s.build .matA row) v)) (row := row + 1) (fun n w hn => ?_)]
    · rw [State.setMem_mem, Memory.read_writeBytes, if_neg (by simpa using h 0 v rfl)]
    · have := h (n + 1) w (by simpa using hn)
      rwa [show row + (n + 1) = row + 1 + n by omega] at this

/-- The cells after storing rows of a bank: in a stored row, or old. -/
theorem State.mem_writeSymRows {r : Region} {l : List (Nat × Symbol)} {x : Host.Cell}
    (h : x ∈ (s.writeSymRows r l).mem) :
    (∃ q ∈ l, symRow s.build r q.1 ≤ x.1 ∧ x.1 < symRow s.build r q.1 + q.2.length) ∨ x ∈ s.mem := by
  induction l generalizing s with
  | nil => exact .inr h
  | cons y l ih =>
    rcases ih (s := s.writeSymRow r y.1 y.2) h with ⟨q, hq, h⟩ | h
    · exact .inl ⟨q, List.mem_cons_of_mem _ hq, h⟩
    · rcases Memory.mem_writeBytes (by simpa using h) with h | h
      · exact .inl ⟨y, List.mem_cons_self, h⟩
      · exact .inr h

/-- The cells after storing rows of MAT_A: in a stored row, or old. -/
theorem State.mem_writeMatrix {row : Nat} {l : List Row} {x : Host.Cell} (h : x ∈ (s.writeMatrix row l).mem) :
    (∃ n v, l[n]? = some v ∧ matRow s.build .matA (row + n) ≤ x.1 ∧
      x.1 < matRow s.build .matA (row + n) + v.length) ∨ x ∈ s.mem := by
  induction l generalizing s row with
  | nil => exact .inr h
  | cons v l ih =>
    rcases ih (s := s.setMem (s.mem.writeBytes (matRow s.build .matA row) v)) (row := row + 1) h with
      ⟨n, w, hn, h⟩ | h
    · refine .inl ⟨n + 1, w, by simpa using hn, ?_⟩
      rwa [show row + (n + 1) = row + 1 + n by omega]
    · rcases Memory.mem_writeBytes (by simpa using h) with h | h
      · exact .inl ⟨0, v, rfl, h⟩
      · exact .inr h

/-- What a host read changes: the bus, and, when it is refused, OVR and the epoch of the free bytes. -/
theorem State.hostRead_cases (s : State) (a n : Nat) :
    (∃ v, s.hostRead a n = { s with bus := v }) ∨
    (s.status.busy = true ∧
      ∃ v k, s.hostRead a n = { s with status := s.status.refuse, bus := v, freeEpoch := s.freeEpoch + k }) := by
  unfold State.hostRead
  split
  · exact .inl ⟨_, rfl⟩
  · split
    · rename_i r _ h
      refine .inr ⟨by simp only [Bool.and_eq_true] at h; exact h.1, ?_⟩
      cases r
      case cmd => exact ⟨_, 0, rfl⟩
      case reserved => exact ⟨_, 0, rfl⟩
      all_goals exact ⟨_, 1, rfl⟩
    · exact .inl ⟨_, rfl⟩
  · split
    · exact .inr ⟨by assumption, _, 1, rfl⟩
    · exact .inl ⟨_, rfl⟩

/-- What a host write changes: STATUS by write-one-to-clear, an issue, an ARG register, bytes of a bank (or, for the
banks that only CORE writes, of the host's copy), OVR when it is refused, or nothing; and the bus. -/
theorem State.hostWrite_cases (s : State) (a n : Nat) (v : BitVec 64) :
    (∃ r, s.hostWrite a n v = { s with bus := r }) ∨
    s.hostWrite a n v = s.refuseWrite ∨
    s.hostWrite a n v = { s with status := s.status.writeOneToClear (v.setWidth 32), bus := .written } ∨
    (s.status.busy = false ∧ s.status.err = false ∧
      s.hostWrite a n v = { s.issue (v.setWidth 32) with bus := .written }) ∨
    (∃ k : Fin 8, s.status.busy = false ∧
      s.hostWrite a n v = { s with args := s.args.set k (v.setWidth 32), bus := .written }) ∨
    (∃ r : Region, s.status.busy = false ∧ r.holds s.build a n = true ∧
      s.hostWrite a n v =
        if r.coreOnly then { s with hostCopy := s.hostCopy.writeBytes a (bytesOfNat n v.toNat), bus := .written }
        else { s with mem := s.mem.writeBytes a (bytesOfNat n v.toNat), bus := .written }) := by
  unfold State.hostWrite
  split
  · exact .inl ⟨_, rfl⟩
  · rename_i r _
    cases r with
    | status => exact .inr (.inr (.inl rfl))
    | cmd =>
      simp only [State.writeReg]
      split
      · exact .inr (.inl rfl)
      · rename_i h
        simp only [Bool.or_eq_true, not_or, Bool.not_eq_true] at h
        exact .inr (.inr (.inr (.inl ⟨h.1, h.2, rfl⟩)))
    | arg k =>
      simp only [State.writeReg]
      split
      · exact .inr (.inl rfl)
      · exact .inr (.inr (.inr (.inr (.inl ⟨k, by simpa using ‹¬s.status.busy = true›, rfl⟩))))
    | id => simp only [State.writeReg]; split; exacts [.inr (.inl rfl), .inl ⟨_, rfl⟩]
    | res _ => simp only [State.writeReg]; split; exacts [.inr (.inl rfl), .inl ⟨_, rfl⟩]
    | cfg _ => simp only [State.writeReg]; split; exacts [.inr (.inl rfl), .inl ⟨_, rfl⟩]
    | mRows => simp only [State.writeReg]; split; exacts [.inr (.inl rfl), .inl ⟨_, rfl⟩]
    | reserved => simp only [State.writeReg]; split; exacts [.inr (.inl rfl), .inl ⟨_, rfl⟩]
  · rename_i r hr
    split
    · exact .inr (.inl rfl)
    · refine .inr (.inr (.inr (.inr (.inr ⟨r, by simpa using ‹¬s.status.busy = true›, ?_, rfl⟩))))
      unfold accessTarget at hr
      split at hr
      · split at hr <;> cases hr
      · split at hr
        · cases hr
        · rename_i q hq
          split at hr
          · cases hr
            simpa using List.find?_some hq
          · cases hr

/-- What one step can do: a host event, an idle turn, an illegal word, or the decoded command. -/
theorem step_cases (h : step s = .next t) :
    (∃ a n rest, s.host = .read a n :: rest ∧ t = State.hostRead { s with host := rest } a.toNat n) ∨
    (∃ a n v rest, s.host = .write a n v :: rest ∧ t = State.hostWrite { s with host := rest } a.toNat n v) ∨
    (∃ rest, s.host = .reset :: rest ∧ t = State.afterReset { s with host := rest }) ∨
    (∃ rest, (s.host = rest ∧ rest = [] ∨ s.host = .coreTurn :: rest) ∧ s.status.busy = false ∧
      t = { s with host := rest }) ∨
    (∃ rest e, (s.host = rest ∧ rest = [] ∨ s.host = .coreTurn :: rest) ∧ s.status.busy = true ∧
      decode s.cmd = .error e ∧ t = State.raiseFail { s with host := rest } .illegalCommand) ∨
    (∃ rest i, (s.host = rest ∧ rest = [] ∨ s.host = .coreTurn :: rest) ∧ s.status.busy = true ∧
      decode s.cmd = .ok i ∧ exec i { s with host := rest } = .next t) := by
  have core : ∀ rest, (s.host = rest ∧ rest = [] ∨ s.host = .coreTurn :: rest) →
      coreTurn { s with host := rest } = .next t →
      (s.status.busy = false ∧ t = { s with host := rest }) ∨
      (∃ e, s.status.busy = true ∧ decode s.cmd = .error e ∧ t = State.raiseFail { s with host := rest } .illegalCommand) ∨
      (∃ i, s.status.busy = true ∧ decode s.cmd = .ok i ∧ exec i { s with host := rest } = .next t) := by
    intro rest _ hc
    unfold coreTurn at hc
    split at hc
    · rename_i hb
      split at hc
      · exact .inr (.inr ⟨_, hb, by assumption, hc⟩)
      · exact .inr (.inl ⟨_, hb, by assumption, failWith_next hc⟩)
    · rename_i hb
      exact .inl ⟨by simpa using hb, by simpa [eq_comm] using hc⟩
  have close : ∀ rest, (s.host = rest ∧ rest = [] ∨ s.host = .coreTurn :: rest) →
      coreTurn { s with host := rest } = .next t → _ := fun rest hr hc => core rest hr hc
  unfold step takeTurn at h
  split at h
  · rename_i hh
    have hs : s = { s with host := [] } := by cases s; simp_all
    rw [hs] at h
    rcases close [] (.inl ⟨hh, rfl⟩) h with h | ⟨e, h⟩ | ⟨i, h⟩
    · exact .inr (.inr (.inr (.inl ⟨[], .inl ⟨hh, rfl⟩, h⟩)))
    · exact .inr (.inr (.inr (.inr (.inl ⟨[], e, .inl ⟨hh, rfl⟩, h⟩))))
    · exact .inr (.inr (.inr (.inr (.inr ⟨[], i, .inl ⟨hh, rfl⟩, h⟩))))
  · rename_i rest hh
    rcases close rest (.inr hh) h with h | ⟨e, h⟩ | ⟨i, h⟩
    · exact .inr (.inr (.inr (.inl ⟨rest, .inr hh, h⟩)))
    · exact .inr (.inr (.inr (.inr (.inl ⟨rest, e, .inr hh, h⟩))))
    · exact .inr (.inr (.inr (.inr (.inr ⟨rest, i, .inr hh, h⟩))))
  · rename_i a n rest hh
    exact .inl ⟨a, n, rest, hh, by simpa [eq_comm] using h⟩
  · rename_i a n v rest hh
    exact .inr (.inl ⟨a, n, v, rest, hh, by simpa [eq_comm] using h⟩)
  · rename_i rest hh
    exact .inr (.inr (.inl ⟨rest, hh, by simpa [eq_comm] using h⟩))

end Sys2Proof.Machine
end

