-- ==== Sys2Proof/Laws/PerInstr.lean ====
section
/-! SUPPORT. Facts about every command as syntax, one lemma per constructor of Instr. -/

namespace Sys2Proof.Laws

/-- The low byte of the command word is the opcode (30_encoding.md R80, R86). -/
def EncodeOpcode.Statement (i : Instr) : Prop := fieldOpc (encode i) = i.opcode

/-- The low 8 bits of a concatenation are its last byte. -/
theorem fieldOpc_append {n : Nat} (h : n + 8 = 32) (x : BitVec n) (y : Byte) :
    fieldOpc ((x ++ y).cast h) = y := by
  obtain rfl : n = 24 := by omega
  ext i hi
  simp only [fieldOpc, BitVec.getElem_extractLsb', BitVec.getLsbD_cast, BitVec.getLsbD_append]
  simp [hi]

theorem EncodeOpcode.nop : EncodeOpcode.Statement .nop := fieldOpc_append rfl _ _
theorem EncodeOpcode.gfAdd (u : Byte) (v : Byte) : EncodeOpcode.Statement (.gfAdd u v) := fieldOpc_append rfl _ _
theorem EncodeOpcode.gfSub (u : Byte) (v : Byte) : EncodeOpcode.Statement (.gfSub u v) := fieldOpc_append rfl _ _
theorem EncodeOpcode.gfMul (u : Byte) (v : Byte) : EncodeOpcode.Statement (.gfMul u v) := fieldOpc_append rfl _ _
theorem EncodeOpcode.gfDiv (u : Byte) (v : Byte) : EncodeOpcode.Statement (.gfDiv u v) := fieldOpc_append rfl _ _
theorem EncodeOpcode.gfExp (idx : BitVec 9) : EncodeOpcode.Statement (.gfExp idx) := fieldOpc_append rfl _ _
theorem EncodeOpcode.gfLog (x : Byte) : EncodeOpcode.Statement (.gfLog x) := fieldOpc_append rfl _ _
theorem EncodeOpcode.vxor (db : BankCode) (sb : BankCode) : EncodeOpcode.Statement (.vxor db sb) := fieldOpc_append rfl _ _
theorem EncodeOpcode.vscale (db : BankCode) (beta : Byte) : EncodeOpcode.Statement (.vscale db beta) := fieldOpc_append rfl _ _
theorem EncodeOpcode.vaxpy (db : BankCode) (sb : BankCode) (beta : Byte) : EncodeOpcode.Statement (.vaxpy db sb beta) := fieldOpc_append rfl _ _
theorem EncodeOpcode.vcopy (db : BankCode) (sb : BankCode) : EncodeOpcode.Statement (.vcopy db sb) := fieldOpc_append rfl _ _
theorem EncodeOpcode.vzero (db : BankCode) : EncodeOpcode.Statement (.vzero db) := fieldOpc_append rfl _ _
theorem EncodeOpcode.sitCeil : EncodeOpcode.Statement .sitCeil := fieldOpc_append rfl _ _
theorem EncodeOpcode.sitLookup : EncodeOpcode.Statement .sitLookup := fieldOpc_append rfl _ _
theorem EncodeOpcode.partition : EncodeOpcode.Statement .partition := fieldOpc_append rfl _ _
theorem EncodeOpcode.rand : EncodeOpcode.Statement .rand := fieldOpc_append rfl _ _
theorem EncodeOpcode.deg : EncodeOpcode.Statement .deg := fieldOpc_append rfl _ _
theorem EncodeOpcode.blkConfig : EncodeOpcode.Statement .blkConfig := fieldOpc_append rfl _ _
theorem EncodeOpcode.tuple : EncodeOpcode.Statement .tuple := fieldOpc_append rfl _ _
theorem EncodeOpcode.buildA : EncodeOpcode.Statement .buildA := fieldOpc_append rfl _ _
theorem EncodeOpcode.rowPattern : EncodeOpcode.Statement .rowPattern := fieldOpc_append rfl _ _
theorem EncodeOpcode.ltEnc : EncodeOpcode.Statement .ltEnc := fieldOpc_append rfl _ _
theorem EncodeOpcode.piSolve : EncodeOpcode.Statement .piSolve := fieldOpc_append rfl _ _
theorem EncodeOpcode.blkEncode : EncodeOpcode.Statement .blkEncode := fieldOpc_append rfl _ _
theorem EncodeOpcode.blkSymbol : EncodeOpcode.Statement .blkSymbol := fieldOpc_append rfl _ _
theorem EncodeOpcode.blkDecode : EncodeOpcode.Statement .blkDecode := fieldOpc_append rfl _ _

end Sys2Proof.Laws
end

