-- ==== Sys2Proof/Tests/Slice0.lean ====
section
/-! SUPPORT. Tests: expected results from spec/95_test_vectors.md (V numbers) or worked by hand from the rule named, and a
witness for the hypotheses of every statement that has some. -/

namespace Sys2Proof.Tests
open Sys2Proof.Machine Sys2Proof.Claims

set_option maxRecDepth 100000
-- the tests run one after another: run side by side, they take more threads than a memory limit may leave
set_option Elab.async false

/-! ### Decoding: every constructor, each word written out from its format (30_encoding.md R81 to R86) -/

theorem test_decode_nop : decode 0x00000000 = .ok .nop := by decide
theorem test_decode_gf_add : decode 0x00CA5301 = .ok (.gfAdd 0x53 0xCA) := by decide
theorem test_decode_gf_sub : decode 0x00CA9902 = .ok (.gfSub 0x99 0xCA) := by decide
theorem test_decode_gf_mul : decode 0x00135703 = .ok (.gfMul 0x57 0x13) := by decide
theorem test_decode_gf_div : decode 0x00801D04 = .ok (.gfDiv 0x1D 0x80) := by decide
theorem test_decode_gf_exp : decode 0x0001FD05 = .ok (.gfExp 509) := by decide
theorem test_decode_gf_log : decode 0x00008E06 = .ok (.gfLog 0x8E) := by decide
theorem test_decode_vxor : decode 0x00001010 = .ok (.vxor 0 1) := by decide
theorem test_decode_vscale : decode 0x00020011 = .ok (.vscale 0 0x02) := by decide
theorem test_decode_vaxpy : decode 0x00CA1012 = .ok (.vaxpy 0 1 0xCA) := by decide
theorem test_decode_vcopy : decode 0x00004313 = .ok (.vcopy 3 4) := by decide
theorem test_decode_vzero : decode 0x00000214 = .ok (.vzero 2) := by decide
theorem test_decode_sit_ceil : decode 0x00000020 = .ok .sitCeil := by decide
theorem test_decode_sit_lookup : decode 0x00000021 = .ok .sitLookup := by decide
theorem test_decode_partition : decode 0x00000022 = .ok .partition := by decide
theorem test_decode_rand : decode 0x00000023 = .ok .rand := by decide
theorem test_decode_deg : decode 0x00000024 = .ok .deg := by decide
theorem test_decode_blk_config : decode 0x00000030 = .ok .blkConfig := by decide
theorem test_decode_tuple : decode 0x00000031 = .ok .tuple := by decide
theorem test_decode_build_a : decode 0x00000032 = .ok .buildA := by decide
theorem test_decode_row_pattern : decode 0x00000033 = .ok .rowPattern := by decide
theorem test_decode_lt_enc : decode 0x00000034 = .ok .ltEnc := by decide
theorem test_decode_pi_solve : decode 0x00000038 = .ok .piSolve := by decide
theorem test_decode_blk_encode : decode 0x00000040 = .ok .blkEncode := by decide
theorem test_decode_blk_symbol : decode 0x00000041 = .ok .blkSymbol := by decide
theorem test_decode_blk_decode : decode 0x00000042 = .ok .blkDecode := by decide

/-- V79, V80, V81, V22, V26, V84: reserved opcodes and nonzero bits that must be zero. -/
theorem test_decode_illegal : [0x00000100, 0x00000007, 0x00000043, 0x01CA5301, 0x00020005, 0x00015306, 0x00000130].map
    decode = [.error .nonzeroMustBeZero, .error .reservedOpcode, .error .reservedOpcode, .error .nonzeroMustBeZero,
      .error .nonzeroMustBeZero, .error .nonzeroMustBeZero, .error .nonzeroMustBeZero] := by decide

/-- V29h, V82, V83: reserved bank codes, and SB of a command that does not use it. -/
theorem test_decode_banks : [0x00000510, 0x0000F010, 0x0000F014].map decode =
    [.error .reservedBank, .error .reservedBank, .error .nonzeroMustBeZero] := by decide

/-- Both checks of WellFormed refuse a reserved bank code: the destination's and the source's (R88). -/
theorem test_wellFormed_refuses : [Instr.vxor 5 0, .vxor 0 15, .vscale 5 1, .vaxpy 5 0 1, .vaxpy 4 5 1, .vcopy 8 0,
    .vcopy 0 9, .vzero 15].map Instr.wellFormed = List.replicate 8 false := by decide

/-- Every opcode-table row of format N decodes through `decodeTableWord`, and a word of more than 32 bits does not. -/
theorem test_decodeTableWord : decodeTableWord 32 0x42 = some .blkDecode ∧ decodeTableWord 8 0x20 = some .sitCeil ∧
    decodeTableWord 40 0x100000000 = none := by decide

/-! ### States for the tests -/

/-- What a command's next state shows. -/
def shows {α : Type} (f : State → α) (o : Out) : Option α :=
  match o with
  | .next t => some (f t)
  | .fault _ => none
  | .refused _ => none

theorem next_of_shows {o : Out} {p : State → Bool} (h : shows p o = some true) : ∃ t, o = .next t ∧ p t = true := by
  unfold shows at h
  split at h
  · exact ⟨_, rfl, by simpa using h⟩
  · cases h
  · cases h

/-- A command in progress right after reset on a build, with ARG0 to ARG2. -/
def at3 (b : Build) (a0 a1 a2 : Nat) : State :=
  { State.reset with
    build := b
    status := Status.issue Status.reset
    args := #v[word a0, word a1, word a2, 0, 0, 0, 0, 0] }

/-- The build of the vectors: the RFC row of K' = 10 and V0[n] = n, with T_MAX = 2. -/
def vBuild : Build := { standInBuild with tMax := 2, v0 := (List.range 256).map word }

/-- The block K = 10, T = 2 configured on it. -/
def vState (a0 a1 : Nat) (m : Memory) : State :=
  { at3 vBuild a0 a1 0 with
    cfg := blockParamsOf 10 2 ⟨10, 254, 7, 10, 17⟩
    status := (Status.issue Status.reset).setCfgValid true
    mem := m }

/-- Bytes of rows of a bank: `f r c` at `base + r * stride + c`. -/
def fill (base stride rows cols : Nat) (f : Nat → Nat → Byte) : Memory :=
  (List.range rows).flatMap fun r => (List.range cols).map fun c => (base + r * stride + c, f r c)

def resOf (s : State) : List Word := s.res.toList
def statusOf (s : State) : Word := s.status.toWord

/-! ### Scalar commands and NOP -/

theorem test_nop : shows statusOf (exec .nop (at3 vBuild 0 0 0)) = some 0x00000002 := by decide
theorem test_gf_add : shows (·.res[0]) (exec (.gfAdd 0x53 0xCA) (at3 vBuild 0 0 0)) = some 0x99 := by decide
theorem test_gf_sub : shows (·.res[0]) (exec (.gfSub 0x99 0xCA) (at3 vBuild 0 0 0)) = some 0x53 := by decide
/-- V5. -/
theorem test_gf_mul_reduces : shows (·.res[0]) (exec (.gfMul 0x80 0x02) (at3 vBuild 0 0 0)) = some 0x1D := by decide +kernel
/-- V8. -/
theorem test_gf_mul : shows (·.res[0]) (exec (.gfMul 0x57 0x13) (at3 vBuild 0 0 0)) = some 0xE0 := by decide +kernel
/-- V11. -/
theorem test_gf_div : shows (·.res[0]) (exec (.gfDiv 0x01 0x53) (at3 vBuild 0 0 0)) = some 0x8C := by decide +kernel
/-- V17. -/
theorem test_gf_div_zero : shows statusOf (exec (.gfDiv 0x00 0x00) (at3 vBuild 0 0 0)) = some 0x00000306 := by decide
/-- V19. -/
theorem test_gf_exp : shows (·.res[0]) (exec (.gfExp 300) (at3 vBuild 0 0 0)) = some 0xC1 := by decide +kernel
/-- V21. -/
theorem test_gf_exp_beyond : shows statusOf (exec (.gfExp 510) (at3 vBuild 0 0 0)) = some 0x00000306 := by decide
/-- V24. -/
theorem test_gf_log : shows (·.res[0]) (exec (.gfLog 0x53) (at3 vBuild 0 0 0)) = some 206 := by decide +kernel
/-- V25. -/
theorem test_gf_log_zero : shows statusOf (exec (.gfLog 0x00) (at3 vBuild 0 0 0)) = some 0x00000306 := by decide

/-! ### Vector commands -/

/-- The T bytes of a row afterwards. -/
def rowOf (r : Region) (row : Nat) (s : State) : Option Symbol := s.readSymRow r row

def d0 : Nat := 0x300000000000
def c0 : Nat := 0x400000000000
def out0 : Nat := 0x700000000000

/-- V27. -/
theorem test_vxor : shows (rowOf .symD 0) (exec (.vxor 0 1) (vState 0 1
    [(d0, 0x53), (d0 + 1, 0xCA), (c0 + 2, 0xCA), (c0 + 3, 0xCA)])) = some (some [0x99, 0x00]) := by decide +kernel
/-- V28. -/
theorem test_vscale : shows (rowOf .symD 0) (exec (.vscale 0 0x02) (vState 0 0 [(d0, 0x02), (d0 + 1, 0x80)])) =
    some (some [0x04, 0x1D]) := by decide +kernel
/-- V29. -/
theorem test_vaxpy : shows (rowOf .symD 1) (exec (.vaxpy 0 1 0xCA) (vState 1 0
    [(d0 + 2, 0x01), (d0 + 3, 0x00), (c0, 0x53), (c0 + 1, 0x02)])) = some (some [0x8E, 0x89]) := by decide +kernel
/-- V29b: the same row as source and destination. -/
theorem test_vaxpy_same : shows (rowOf .symD 0) (exec (.vaxpy 0 0 0x03) (vState 0 0 [(d0, 0x04), (d0 + 1, 0x1D)])) =
    some (some [0x08, 0x3A]) := by decide +kernel
/-- V29e: the destination holds no value before. -/
theorem test_vcopy : shows (rowOf .symRx 7) (exec (.vcopy 3 4) (vState 7 0 [(out0, 0x12), (out0 + 1, 0x34)])) =
    some (some [0x12, 0x34]) := by decide +kernel
/-- V29g: SYM_OUT has one row. -/
theorem test_vcopy_range : shows statusOf (exec (.vcopy 4 0) (vState 1 0 [])) = some 0x00000416 := by decide +kernel
/-- V29f. -/
theorem test_vzero : shows (rowOf .symD 5) (exec (.vzero 0) (vState 5 0 [])) = some (some [0x00, 0x00]) := by decide +kernel
/-- V29i. -/
theorem test_vzero_unconfigured : shows statusOf (exec (.vzero 0) (at3 vBuild 0 0 0)) = some 0x00000206 := by decide

/-! ### Tables and configuration -/

/-- V37. -/
theorem test_sit_ceil : shows (·.res[0]) (exec .sitCeil (at3 vBuild 7 0 0)) = some 10 := by decide
/-- V38. -/
theorem test_sit_ceil_beyond : shows statusOf (exec .sitCeil (at3 vBuild 56404 0 0)) = some 0x00001006 := by decide
/-- V39. -/
theorem test_sit_lookup : shows resOf (exec .sitLookup (at3 vBuild 10 0 0)) = some [254, 7, 10, 17, 0, 0, 0, 0] := by decide
theorem test_sit_lookup_miss : shows statusOf (exec .sitLookup (at3 vBuild 11 0 0)) = some 0x00001006 := by decide
/-- V30. -/
theorem test_partition : shows resOf (exec .partition (at3 vBuild 10 3 0)) = some [3, 4, 2, 1, 0, 0, 0, 0] := by decide
/-- V33. -/
theorem test_partition_small : shows resOf (exec .partition (at3 vBuild 3 5 0)) = some [0, 1, 2, 3, 0, 0, 0, 0] := by decide
/-- V40. -/
theorem test_rand : shows (·.res[0]) (exec .rand (at3 vBuild 0x105 1 7)) = some 6 := by decide +kernel
/-- V41. -/
theorem test_rand_domain : shows statusOf (exec .rand (at3 vBuild 1 256 7)) = some 0x00000306 := by decide
/-- V42. -/
theorem test_deg : shows (·.res[0]) (exec .deg (at3 vBuild 1048575 17 0)) = some 15 := by decide +kernel
/-- V43. -/
theorem test_deg_domain : shows statusOf (exec .deg (at3 vBuild 5 2 0)) = some 0x00000306 := by decide
/-- V44 with T = 2 (T_MAX of the test build). -/
theorem test_blk_config : shows (fun s => (s.cfg.words.toList, s.status.toWord)) (exec .blkConfig (at3 vBuild 10 2 0)) =
    some ([10, 2, 10, 254, 7, 10, 17, 27, 10, 11, 0, 10], 0x00000012) := by decide +kernel
/-- V44b: the CFG registers keep their values. -/
theorem test_blk_config_fails : shows (fun s => (s.cfg.k, s.status.toWord)) (exec .blkConfig (vState 0 8 [])) =
    some (10, 0x00001006) := by decide
/-- V36. -/
theorem test_prime_ceil : [1, 2, 10, 11, 17, 24, 25].map primeCeil = [2, 2, 11, 11, 17, 29, 29] := by decide

/-! ### Tuples, matrix, LT encoder -/

/-- V46, V47: y for J = 254, and the forced-odd constant for J = 1 (A = 54589, B = 20534). -/
theorem test_tuple_y : [0, 1, 10, 13].map (tupleY 254) = [2618085, 2924914, 5686375, 6606862] ∧
    tupleY 1 1 = 20534 + 54589 := by decide
/-- By hand from R170, with V1 to V3 zero and V0[n] = n: y = 2618085 mod 256 = 229, so v = 229 and d = 30 clipped to
W - 2 = 15, a = 1 + 230 mod 16 = 7, b = 231 mod 17 = 10, d1 = 2, a1 = 1 + 4 mod 10 = 5, b1 = 5. -/
theorem test_tuple : shows resOf (exec .tuple (vState 0 0 [])) = some [15, 7, 10, 2, 5, 5, 0, 0] := by decide +kernel
/-- V48 to V51. -/
theorem test_tuple_indices : tupleIndices 17 10 11 ⟨3, 5, 16, 2, 4, 10⟩ = [16, 4, 9, 20, 24] ∧
    tupleIndices 17 10 11 ⟨2, 1, 16, 3, 5, 9⟩ = [16, 0, 26, 20, 25] ∧
    tupleIndices 17 10 11 ⟨1, 1, 0, 2, 1, 9⟩ = [0, 26, 17] ∧
    tupleIndices 17 10 11 ⟨4, 16, 5, 2, 10, 0⟩ = [5, 4, 3, 2, 17, 26] := by decide

/-- The columns of a row that hold 1. -/
def onesOf (row : Row) : List Nat := (List.range row.length).filter fun j => row.getD j 0 = 1

/-- V53, rows 0, 2 and 6. -/
theorem test_build_a_ldpc :
    let c := blockParamsOf 10 2 ⟨10, 254, 7, 10, 17⟩
    [0, 2, 6].map (fun r => onesOf ((List.range 27).map (ldpcEntry c r))) =
      [[0, 5, 6, 7, 10, 17, 18], [0, 1, 2, 7, 9, 12, 19, 20], [4, 5, 6, 9, 16, 23, 24]] := by decide +kernel
/-- V54: HDPC column 16. -/
theorem test_build_a_hdpc :
    (List.range 10).map (fun h => hdpcEntry vBuild (blockParamsOf 10 2 ⟨10, 254, 7, 10, 17⟩) h 16) =
      [0x01, 0x02, 0x04, 0x08, 0x10, 0x20, 0x40, 0x80, 0x1D, 0x3A] := by decide +kernel
/-- V56. -/
theorem test_gamma : [(1, 0), (2, 0), (255, 0), (256, 0), (0, 1)].map (fun q => gammaEntry vBuild q.1 q.2) =
    [0x02, 0x04, 0x01, 0x01, 0x00] := by decide +kernel
/-- The pattern of V48's indices (V52), and a repeated index cancels (R187). -/
theorem test_row_pattern : onesOf (toggleAll [16, 4, 9, 20, 24] (zeroBytes 27)) = [4, 9, 16, 20, 24] ∧
    onesOf (toggleAll [3, 5, 3] (zeroBytes 27)) = [5] := by decide
/-- ROW_PATTERN on row M_MAX = 27 + 10 fails RANGE (R191). -/
theorem test_row_pattern_range : shows statusOf (exec .rowPattern (vState 37 0 [])) = some 0x00000416 := by decide +kernel

/-- V58 to V60, function level: T = 1 and SYM_C[j] = j. -/
theorem test_lt_enc : [[16, 4, 9, 20, 24], [16, 0, 26, 20, 25], [0, 26, 17]].map (fun l => State.xorRowsC
    { vState 0 0 (fill c0 2 27 1 fun r _ => BitVec.ofNat 8 r) with cfg := blockParamsOf 10 1 ⟨10, 254, 7, 10, 17⟩ } l [0]) =
    [some [0x11], some [0x07], some [0x0B]] := by decide +kernel
/-- LT_ENC while C_VALID = 0 fails NOT_SOLVED (R211). -/
theorem test_lt_enc_unsolved : shows statusOf (exec .ltEnc (vState 0 0 [])) = some 0x00000516 := by decide

/-! ### The solver -/

/-- A solver state whose row k holds 1 at the given columns, with no HDPC row. -/
def edgeState (rows : List (List Nat)) : Solver :=
  { a := rows.map fun cs => (List.range 17).map fun j => if cs.contains j then 1 else 0
    x := rows.map fun _ => List.replicate 17 0
    d := rows.map fun _ => []
    rowD := List.range rows.length
    permC := List.range 17 }

/-- V62, V63, V64: the row chosen by the graph; the rows between hold three nonzeros. -/
theorem test_graph :
    let t := [0, 1, 2]
    let dims : SolveDims := ⟨0, 0, 0, 17, 0⟩
    chooseRow dims (edgeState [t, t, [0, 1], [5, 6], [6, 7], t, t, t, t, [1, 2]]) 0 17 = some (2, 2) ∧
    chooseRow dims (edgeState [t, t, [0, 1], [5, 6], [6, 7], t, t, t, t, [1, 2], [7, 8]]) 0 17 = some (3, 2) ∧
    chooseRow dims (edgeState [t, t, [0, 1], [5, 6], [6, 7], [0, 1], t, t, t, [1, 2], [7, 8]]) 0 17 = some (3, 2) := by
  decide +kernel

/-- V65: column placement. -/
theorem test_column_placement :
    let st := placeColumns (edgeState [[3, 5, 16]]) 0 17
    st.a.map onesOf = [[0, 15, 16]] ∧
    st.permC = [3, 1, 2, 0, 4, 15, 6, 7, 8, 9, 10, 11, 12, 13, 14, 5, 16] := by decide +kernel

/-- V69: PI_SOLVE 26 with L = 27 fails RANGE. -/
theorem test_pi_solve_range : shows (fun s => (s.status.toWord, s.mRows)) (exec .piSolve (vState 26 0 [])) =
    some (0x00000416, 0) := by decide +kernel

/-- By hand: C0 + C1 = 7, 2*C1 = 4, and an overhead equation C0 = 5, give C0 = 5 and C1 = 2 (R241). -/
theorem test_pi_solve_small : solve vBuild ⟨0, 0, 1, 2, 1⟩ [[1, 1], [0, 2], [1, 0]] [[7], [4], [5]] =
    .ok [(1, [2]), (0, [5])] ∨ solve vBuild ⟨0, 0, 1, 2, 1⟩ [[1, 1], [0, 2], [1, 0]] [[7], [4], [5]] =
    .ok [(0, [5]), (1, [2])] := by decide +kernel

/-! ### The block codec -/

/-- V71. -/
theorem test_blk_symbol_esi : shows statusOf (exec .blkSymbol (vState 0x01000000 0 [])) = some 0x00001016 := by decide
/-- V72: a source ESI needs no solve. -/
theorem test_blk_symbol_source : shows (rowOf .symOut 0) (exec .blkSymbol (vState 3 0
    [(0x500000000006, 0x03), (0x500000000007, 0xA3)])) = some (some [0x03, 0xA3]) := by decide +kernel
/-- V76. -/
theorem test_blk_decode_empty : shows statusOf (exec .blkDecode (vState 0 0 [])) = some 0x00002216 := by decide +kernel
/-- V77. -/
theorem test_blk_decode_range : shows statusOf (exec .blkDecode (vState 11 0 [])) = some 0x00000416 := by decide +kernel

/-! ### The host -/

/-- A state with this STATUS word's fields and one host event. -/
def hostState (f : Status) (e : HostEvent) : State := { at3 vBuild 0 0 0 with status := f, host := [e] }

def failedDomain : Status := ⟨false, true, true, false, false, false, 0x03⟩

/-- V85. -/
theorem test_status_ack : shows statusOf (step (hostState failedDomain (.write 0x008 4 0x4))) = some 0x00000002 := by decide
/-- V86. -/
theorem test_cmd_refused : shows statusOf (step (hostState failedDomain (.write 0x004 4 0x0))) = some 0x0000030E := by decide
/-- V87. -/
theorem test_status_clear : shows statusOf (step (hostState { failedDomain with ovr := true } (.write 0x008 4 0xE))) =
    some 0x00000000 := by decide
/-- V88. -/
theorem test_status_read_only : shows statusOf (step (hostState { failedDomain with cfgValid := true, cValid := true }
    (.write 0x008 4 0x31))) = some 0x00000336 := by decide
/-- A misaligned register access and one past a bank answer with a bus error (R62, R65). -/
theorem test_bus_error : shows (·.bus) (step (hostState Status.reset (.read 0x002 4))) = some .busError ∧
    shows (·.bus) (step (hostState Status.reset (.write 0x700000000002 1 0))) = some .busError := by decide +kernel
/-- A little-endian word write and a byte read of RX_ESI's neighbour bank (R63). -/
theorem test_little_endian : shows (fun s => [0, 1, 2, 3].map fun k => s.mem.read (0x000300000004 + k))
    (step (hostState Status.reset (.write 0x000300000004 4 0x0A0B0C0D))) =
    some [some 0x0D, some 0x0C, some 0x0B, some 0x0A] := by decide +kernel

/-- A host write at PERM_C leaves the bank as it was (R20, R43), its bytes are read back (R66), and a solve forgets them with
the rest of its scratch (R246). -/
theorem test_perm_c :
    shows (fun s => (s.mem, [0, 1, 2, 3, 4].map fun k => s.hostByte (0x000100000004 + k)))
      (step (hostState Status.reset (.write 0x000100000004 4 0x11))) = some ([], [some 0x11, some 0, some 0, some 0, none]) ∧
    (State.clearScratch { vState 0 0 [] with hostCopy := [(0x000100000004, 0x11), (0x000100000070, 0x22)] } 27).hostCopy =
      [(0x000100000070, 0x22)] := by decide +kernel

/-- The word placed where the next step runs it, as the first command after reset. -/
theorem test_withFetchWord : shows (·.res[0]) (step (State.reset.withFetchWord 32 0x00CA5301)) = some 0x99 ∧
    shows statusOf (step (State.reset.withFetchWord 32 0x00000510)) = some 0x00000106 := by decide

/-! ### Witnesses: states and operands that meet the hypotheses of the statements -/

/-- A small block: K' = 10, S = 1, H = 2, W = 3, so L = 13, with room beyond L and T. -/
def wRow : SitRow := ⟨10, 0, 1, 2, 3⟩

def wBuild : Build :=
  { standInBuild with
    kMax := 10, tMax := 2, lMax := 14, rxMax := 10, sit := [wRow, ⟨56403, 0, 1, 2, 3⟩]
    v0 := (List.range 256).map word }

theorem wBuild_ok : BuildOk wBuild := ⟨by decide +kernel, gfTablesOk_default⟩

/-- A command in progress with K = 1, T = 1 configured. -/
def wState (cv : Bool) (a0 a1 : Nat) (m : Memory) : State :=
  { at3 wBuild a0 a1 0 with
    cfg := blockParamsOf 1 1 wRow
    status := ⟨true, false, false, false, true, cv, 0⟩
    mem := m }

/-- Every listed byte lies in a bank that the host or a command writes. -/
def banksCheck (m : Memory) : Bool := m.all fun x => Region.all.any fun r => r.holds wBuild x.1 1 && !r.coreOnly

theorem wState_sound (cv : Bool) (a0 a1 : Nat) {m : Memory} (hm : m.wf) (hb : banksCheck m = true) :
    MachineOk (wState cv a0 a1 m) where
  build := wBuild_ok
  status := show StatusOk ⟨true, false, false, false, true, cv, 0⟩ by cases cv <;> decide
  config _ := ⟨1, 1, wRow, by decide, by decide, show configRow wBuild 1 1 = some wRow by decide, rfl⟩
  canonical := hm
  banks x hx := by
    have h := List.all_eq_true.1 hb x hx
    obtain ⟨r, _, hr⟩ := List.any_eq_true.1 h
    simp only [Bool.and_eq_true, Bool.not_eq_true'] at hr
    exact ⟨r, hr.1, hr.2⟩
  copyCanonical := List.Pairwise.nil
  copyBanks _ hx := nomatch hx

def src0 : Nat := 0x500000000000
def rx0 : Nat := 0x600000000000
def a0 : Nat := 0x100000000000
def esi0 : Nat := 0x000300000000

/-- Symbols in every bank: D[0] = 2, D[1] = 3, every C[r] = r + 1, SRC[0] = 0x53, OUT = 7. -/
def wMem : Memory := [(d0, 2), (d0 + 2, 3)] ++ fill c0 2 13 1 (fun r _ => BitVec.ofNat 8 (r + 1)) ++ [(src0, 0x53), (out0, 7)]

/-- The system of the identity, C[r] = r, in MAT_A and SYM_D rows [0, 13). -/
def wSystem (diag : Byte) : Memory :=
  fill a0 14 13 13 (fun r c => if r = c then (if r = 5 then diag else 1) else 0) ++ fill d0 2 13 1 (fun r _ => BitVec.ofNat 8 r)

/-- One received symbol: the ESI and its byte. -/
def wReceived (esi : Nat) (v : Byte) : Memory :=
  [(esi0, BitVec.ofNat 8 esi), (esi0 + 1, 0), (esi0 + 2, 0), (esi0 + 3, 0), (src0, 0x53), (rx0, v)]

theorem wMem_sound (cv : Bool) (x y : Nat) : MachineOk (wState cv x y wMem) :=
  wState_sound cv x y (by decide +kernel) (by decide +kernel)
theorem wSystem_sound (diag : Byte) (h : (wSystem diag).wf ∧ banksCheck (wSystem diag) = true) (x : Nat) :
    MachineOk (wState false x 0 (wSystem diag)) := wState_sound false x 0 h.1 h.2
theorem wReceived_sound (esi : Nat) (v : Byte) (x : Nat) : MachineOk (wState false x 0 (wReceived esi v)) :=
  wState_sound false x 0 (by simp [wReceived, esi0, src0, rx0]) (by simp [wReceived, banksCheck, esi0, src0, rx0]; decide +kernel)

/-- The next state of a core's turn or command that certainly has one. -/
theorem exists_next {o : Out} {p : State → Bool} (h : shows p o = some true) : ∃ t, o = .next t ∧ p t = true := next_of_shows h

theorem test_witness_DecodeEncodeRoundTrip :
    (Instr.vaxpy 4 3 0xCA).wellFormed = true ∧ (Instr.vzero 5).wellFormed = false := by decide

/-- A latched word, the command in progress. -/
def latched (w : Word) : State := { wState false 0 0 [] with cmd := w }

theorem test_witness_DecodingProcedure :
    (latched 7).status.busy = true ∧ CoreMoves (latched 7) (latched 7) ∧
    (∀ r ∈ opcodeMap, (latched 7).cmd &&& r.mask ≠ r.pattern) ∧
    (∃ r ∈ opcodeMap, (latched 0x510).cmd &&& r.mask = r.pattern ∧ badBank r.mnemonic (latched 0x510).cmd) ∧
    (∃ r ∈ opcodeMap, (latched 0x0000F013).cmd &&& r.mask = r.pattern ∧ badBank r.mnemonic (latched 0x0000F013).cmd) ∧
    (∃ r ∈ opcodeMap, (latched 0x00004413).cmd &&& r.mask = r.pattern ∧ ¬badBank r.mnemonic (latched 0x00004413).cmd) ∧
    CoreMoves { latched 7 with host := [.coreTurn, .reset] } { latched 7 with host := [.reset] } :=
  ⟨rfl, .inl ⟨rfl, rfl⟩, by decide, by decide, by decide, by decide, .inr ⟨[.reset], rfl, rfl⟩⟩

theorem test_witness_StepRunsTheDecodedCommand :
    (latched 0x00CA5301).status.busy = true ∧ CoreMoves (latched 0x00CA5301) (latched 0x00CA5301) ∧
    decode (latched 0x00CA5301).cmd = .ok (.gfAdd 0x53 0xCA) ∧
    ∃ s : State, s.status.busy = false ∧ s.status.err = false ∧
      s.host = .write 0x004 4 (BitVec.setWidth 64 (0x00CA5301 : Word)) :: .coreTurn :: [] :=
  ⟨rfl, .inl ⟨rfl, rfl⟩, by decide,
    { State.reset with host := [.write 0x004 4 (BitVec.setWidth 64 (0x00CA5301 : Word)), .coreTurn] }, rfl, rfl, rfl⟩

theorem test_witness_CmdWriteIssues :
    State.reset.status.busy = false ∧ State.reset.status.err = false ∧ (latched 0).status.busy = true ∧
    (hostState failedDomain .reset).status.err = true ∧ CoreMoves (latched 0) (latched 0) ∧
    decode (latched 0).cmd = .ok .nop := ⟨rfl, rfl, rfl, rfl, .inl ⟨rfl, rfl⟩, by decide⟩

theorem test_witness_StatusRegister : MachineOk (wState true 0 0 wMem) ∧ (wState true 0 0 wMem).status.err = false :=
  ⟨wMem_sound true 0 0, rfl⟩

theorem test_witness_AcknowledgeFailure : ∃ s : State, s.status.busy = false ∧ s.status.err = true ∧
    (0x4 : BitVec 64).getLsbD 2 = true ∧ s.host = [.write 0x008 4 0x4, .write 0x004 4 0x1] :=
  ⟨{ hostState failedDomain .reset with host := [.write 0x008 4 0x4, .write 0x004 4 0x1] }, rfl, rfl, by decide, rfl⟩

theorem test_witness_RegisterFile : State.reset.status.busy = false ∧
    ((0x00C : Nat) < 0x1000 ∧ 0x00C % 4 = 0) ∧ (0xFFC : Nat) < 0x1000 ∧ 0xFFC % 4 = 0 ∧ 0x084 ≤ 0xFFC := by decide

theorem test_witness_AccessWhileBusy : (latched 0).status.busy = true ∧ BuildOk (latched 0).build ∧
    Admitted (latched 0).build 0x010 4 ∧ Admitted (latched 0).build 0x004 4 ∧ Admitted (latched 0).build 0x100000000000 8 ∧
    ¬(0x030 ≤ 0x02C ∧ 0x02C ≤ 0x080) ∧ ¬(0x030 ≤ 0x084 ∧ 0x084 ≤ 0x080) :=
  ⟨rfl, wBuild_ok, by decide, by decide, by decide, by decide, by decide⟩

theorem test_witness_WidthsAndMap : BuildOk (latched 0).build ∧
    ¬Admitted (latched 0).build 0x002 4 ∧ ¬Admitted (latched 0).build 0x1000 4 ∧
    ¬Admitted (latched 0).build 0x700000000001 2 ∧ ¬Admitted (latched 0).build 0x000300000000 8 ∧
    Admitted (latched 0).build 0x700000000001 1 ∧ Admitted (latched 0).build 0xFFC 4 ∧
    Admitted (latched 0).build 0x000300000024 4 ∧ ¬Admitted (latched 0).build 0x000300000028 4 :=
  ⟨wBuild_ok, by decide, by decide, by decide, by decide, by decide, by decide, by decide, by decide⟩

theorem test_witness_ElementAddresses : BuildOk wBuild := wBuild_ok

theorem test_witness_HostBytesAreLittleEndian :
    let s := { wState false 0 0 (wReceived 10 0x99) with
      status := Status.reset, hostCopy := [(0x000100000034, 1), (0x000100000035, 2), (0x000100000036, 3), (0x000100000037, 4)] }
    BuildOk s.build ∧ s.status.busy = false ∧
    (Region.rxEsi.holds s.build 0x000300000000 4 = true ∧ widthOk Region.rxEsi.isWords 0x000300000000 4 = true ∧
      ∀ k < 4, s.mem.read (0x000300000000 + k) = some ([10, 0, 0, 0].getD k 0)) ∧
    (Region.permC.holds s.build 0x000100000034 4 = true ∧ widthOk Region.permC.isWords 0x000100000034 4 = true ∧
      ∀ k < 4, s.mem.read (0x000100000034 + k) = none ∧
        s.hostCopy.read (0x000100000034 + k) = some ([1, 2, 3, 4].getD k 0)) ∧
    Region.matX.holds s.build 0x20000000014F 1 = true ∧ Region.rowD.holds s.build 0x00020000005C 4 = true :=
  ⟨wBuild_ok, rfl, by decide, by decide, by decide, by decide⟩

theorem test_witness_ReadsHaveNoSideEffect : ∃ s : State, s.status.busy = false ∧ s.host = [.read 0x500000000000 1] ∧
    ¬Valued s.mem src0 1 :=
  ⟨{ wState false 0 0 [] with status := Status.reset, host := [.read 0x500000000000 1] }, rfl, rfl, by decide⟩

theorem test_witness_RegisterWriters :
    (∃ s t : State, MachineOk s ∧ step s = .next t ∧ t.res ≠ s.res) ∧
    ∃ s t : State, MachineOk s ∧ step s = .next t ∧ t.args ≠ s.args := by
  refine ⟨⟨{ wState false 0 0 [] with cmd := 0x00CA5301 }, _, ?_, rfl, by decide⟩,
    ⟨{ wState false 0 0 [] with status := Status.reset, host := [.write 0x010 4 5] }, _, ?_, rfl, by decide⟩⟩
  · have h := wState_sound false 0 0 (m := []) (by decide) (by decide)
    exact ⟨h.build, h.status, h.config, h.canonical, h.banks, h.copyCanonical, h.copyBanks⟩
  · have h := wState_sound false 0 0 (m := []) (by decide) (by decide)
    exact ⟨h.build, by decide, fun hc => by simp [Status.reset] at hc, h.canonical, h.banks, h.copyCanonical, h.copyBanks⟩

theorem test_witness_CommandFrame : ∃ s t : State, exec .blkConfig s = .next t ∧ s.status.err = false ∧
    t.status.err = true := by
  obtain ⟨t, h, ht⟩ := next_of_shows (p := fun t => t.status.err) (o := exec .blkConfig (wState true 0 0 [])) (by decide)
  exact ⟨_, t, h, rfl, ht⟩

theorem test_witness_ValidFlags : ∃ t, (wState false 13 0 (wSystem 1)).status.err = false ∧
    exec .piSolve (wState false 13 0 (wSystem 1)) = .next t ∧ t.status.err = false := by
  obtain ⟨t, h, ht⟩ := next_of_shows (p := fun t => !t.status.err) (o := exec .piSolve (wState false 13 0 (wSystem 1)))
    (by decide +kernel)
  exact ⟨t, rfl, h, by simpa using ht⟩

theorem test_witness_ResetValues : { wState true 1 2 wMem with host := [HostEvent.reset] }.host = .reset :: [] := rfl

theorem test_witness_StepKeepsMemoryCanonical : ∃ s t : State, s.mem.wf ∧ s.mem ≠ [] ∧ step s = .next t :=
  ⟨{ wState true 0 0 wMem with cmd := 0x00000014 }, _, by decide +kernel, by decide, rfl⟩

theorem test_witness_StepKeepsMachineSound : ∃ s t : State, MachineOk s ∧ step s = .next t ∧ t.status ≠ s.status :=
  ⟨wState true 0 0 wMem, _, wMem_sound true 0 0, rfl, by decide⟩

theorem test_witness_CommandsWriteInsideTheBlock : ∃ (t : State) (x : Nat), MachineOk (wState true 0 0 wMem) ∧
    exec (.vzero 0) (wState true 0 0 wMem) = .next t ∧ t.mem.read x ≠ (wState true 0 0 wMem).mem.read x :=
  ⟨_, d0, wMem_sound true 0 0, rfl, by decide +kernel⟩

/-- PI_SOLVE forgets a byte that the host stored at PERM_C. -/
theorem test_witness_CommandsWriteInsideTheBlock_copy : ∃ (s t : State) (x : Nat), MachineOk s ∧
    exec .piSolve s = .next t ∧ t.hostCopy.read x ≠ s.hostCopy.read x ∧ Scratch s (mMaxOf s.build) x := by
  obtain ⟨t, h, ht⟩ := next_of_shows (p := fun t => t.hostCopy.read 0x000100000001 == none)
    (o := exec .piSolve { wState false 13 0 (wSystem 1) with hostCopy := [(0x000100000001, 5)] }) (by decide +kernel)
  have ok := wSystem_sound 1 (by decide +kernel) 13
  refine ⟨{ wState false 13 0 (wSystem 1) with hostCopy := [(0x000100000001, 5)] }, t, 0x000100000001,
    ⟨ok.build, ok.status, ok.config, ok.canonical, ok.banks, by decide, ?_⟩, h,
    by rw [beq_iff_eq.1 ht]; decide +kernel, .inr (.inr (.inl ⟨0, by decide, 1, by decide, rfl⟩))⟩
  intro x hx
  rw [List.mem_singleton.1 hx]
  exact ⟨.permC, by decide, rfl⟩

/-- The two states differ in byte 1 of D[0], beyond T = 1. -/
theorem test_witness_CommandsReadInsideTheBlock :
    let s := wState true 0 1 wMem
    let s' := wState true 0 1 (wMem.write (d0 + 1) 0xEE)
    MachineOk s ∧ MachineOk s' ∧ s' = { s with mem := s'.mem, hostCopy := s'.hostCopy } ∧ s'.mem ≠ s.mem ∧
      (∀ a, InSymbols s a ∨ InMatrix s a ∨ InEsi s a → s'.mem.read a = s.mem.read a) := by
  refine ⟨wMem_sound true 0 1, wState_sound true 0 1 (by decide +kernel) (by decide +kernel), rfl, by decide +kernel, ?_⟩
  intro a ha
  show (wMem.write (d0 + 1) 0xEE).read a = wMem.read a
  rw [Memory.read_write, if_neg]
  rintro rfl
  rcases ha with ⟨code, hc, row, _, k, hk, h⟩ | ⟨row, hr, c, hc, h⟩ | ⟨_, h⟩
  · have hk : k < 1 := hk
    have h : d0 + 1 = 0x300000000000 + code * 0x100000000000 + row * 2 + k := h
    simp only [d0] at h
    omega
  · have hr : row < 24 := hr
    have hc : c < 13 := hc
    have h : d0 + 1 = 0x100000000000 + row * 14 + c := h
    simp only [d0] at h
    omega
  · have h : d0 + 1 < 0x000300000000 + 4 * 10 := h
    simp only [d0] at h
    omega

theorem test_witness_CodesEachCommandRaises : (Instr.vxor 0 1).wellFormed = true ∧ (wState true 0 1 wMem).status.err = false ∧
    (shows statusOf (exec (.vxor 0 1) (wState true 0 1 wMem))).isSome = true := ⟨rfl, rfl, by decide +kernel⟩

theorem test_witness_FailedCommandsKeepTheBanks : ∃ (s t : State) (x : Nat), MachineOk s ∧ s.status.err = false ∧
    exec .piSolve s = .next t ∧ t.status.err = true ∧ t.mem.read x ≠ s.mem.read x := by
  obtain ⟨t, h, ht⟩ := next_of_shows (p := fun t => t.status.err && t.mem.read d0 == none)
    (o := exec .piSolve (wState false 13 0 (wSystem 0))) (by decide +kernel)
  simp only [Bool.and_eq_true, beq_iff_eq] at ht
  exact ⟨_, t, d0, wSystem_sound 0 (by decide +kernel) 13, rfl, h, ht.1, by rw [ht.2]; decide +kernel⟩

theorem test_witness_NopCompletes : bits (0x00000000 : Word) 0 8 = 0x00 ∧ bits (0x00000000 : Word) 8 24 = 0 ∧
    bits (0x00000100 : Word) 8 24 ≠ 0 := by decide
theorem test_witness_GfAddAndGfSub : bits (0x00CA5301 : Word) 0 8 = 0x01 ∧ bits (0x00CA5301 : Word) 24 8 = 0 ∧
    bits (0x01CA5302 : Word) 0 8 = 0x02 ∧ bits (0x01CA5302 : Word) 24 8 ≠ 0 := by decide
theorem test_witness_GfMulResult : BuildOk (latched 0).build ∧ (latched 0).build.expRom = gfExpRom ∧
    (latched 0).build.logRom = gfLogRom ∧ bits (0x00CA5303 : Word) 0 8 = 0x03 := ⟨wBuild_ok, rfl, rfl, by decide⟩
theorem test_witness_GfDivResult : BuildOk (latched 0).build ∧ (0xCA : Byte) ≠ 0 ∧ (latched 0).build.expRom = gfExpRom ∧
    (latched 0).build.logRom = gfLogRom ∧ bits (0x00CA5304 : Word) 0 8 = 0x04 := ⟨wBuild_ok, by decide, rfl, rfl, by decide⟩
theorem test_witness_GfExpAndGfLog : 510 ≤ (510 : BitVec 9).toNat ∧ (509 : BitVec 9).toNat < 510 ∧ (0x8E : Byte) ≠ 0 ∧
    bits (0x0001FD05 : Word) 0 8 = 0x05 ∧ bits (0x0001FD05 : Word) 17 15 = 0 ∧ bits (0x00015306 : Word) 0 8 = 0x06 ∧
    bits (0x00015306 : Word) 16 16 ≠ 0 ∧ (latched 0).build.expRom = gfExpRom ∧ (latched 0).build.logRom = gfLogRom :=
  ⟨by decide, by decide, by decide, by decide, by decide, by decide, by decide, rfl, rfl⟩
theorem test_witness_FieldTables : BuildOk wBuild ∧ (0xFF : Byte) ≠ 0 := ⟨wBuild_ok, by decide⟩
theorem test_witness_FieldLaws : BuildOk wBuild ∧ (0x53 : Byte) ≠ 0 ∧ (0xCA : Byte) ≠ 0 := ⟨wBuild_ok, by decide, by decide⟩
theorem test_witness_GfMulIsThePolynomialProduct : BuildOk wBuild := wBuild_ok

theorem test_witness_VectorChecks :
    vectorBanks (.vcopy 4 0) = some (4, some 0) ∧ vectorBanks (.vzero 15) = some (15, none) ∧
    (wState true 1 0 []).status.cfgValid = true ∧ rowsOf (wState true 1 0 []).build 4 ≤ argn (wState true 1 0 []) 0 ∧
    rowsOf (wState true 0 24 []).build 0 ≤ argn (wState true 0 24 []) 1 ∧ (at3 wBuild 0 0 0).status.cfgValid = false ∧
    bits (0x00004413 : Word) 0 8 = 0x13 := by decide

theorem test_witness_VxorAndVaxpy :
    let s := wState true 1 12 wMem
    (0 : BankCode).toNat < 5 ∧ (1 : BankCode).toNat < 5 ∧ s.status.cfgValid = true ∧ argn s 0 < rowsOf s.build 0 ∧
    argn s 1 < rowsOf s.build 1 ∧ Valued s.mem (symAt s 0 (argn s 0)) (tOf s) ∧
    Valued s.mem (symAt s 1 (argn s 1)) (tOf s) := by decide +kernel
theorem test_witness_VscaleVzeroAndVcopy :
    let s := wState true 0 0 wMem
    (4 : BankCode).toNat < 5 ∧ (2 : BankCode).toNat < 5 ∧ s.status.cfgValid = true ∧ argn s 0 < rowsOf s.build 4 ∧
    argn s 1 < rowsOf s.build 2 ∧ Valued s.mem (symAt s 4 (argn s 0)) (tOf s) ∧
    Valued s.mem (symAt s 2 (argn s 1)) (tOf s) := by decide +kernel
theorem test_witness_NoValueFaults :
    let s := wState true 5 12 wMem
    let p := wState true 13 0 wMem
    let z := wState true 0 0 []
    s.status.cfgValid = true ∧ argn s 0 < rowsOf s.build 0 ∧ argn s 1 < rowsOf s.build 1 ∧
    ¬Valued s.mem (symAt s 0 (argn s 0)) (tOf s) ∧ ¬Valued z.mem (symAt z 1 (argn z 1)) (tOf z) ∧
    lOf p ≤ argn p 0 ∧ argn p 0 ≤ mMaxOf p.build ∧ 2 < argn p 0 ∧ ¬Valued p.mem (dRow p 2) (tOf p) ∧
    0 < kOf z ∧ ¬Valued z.mem (srcRow z 0) (tOf z) ∧ argn z 0 < kOf z ∧ argn z 0 < 2 ^ 24 := by decide +kernel
theorem test_witness_NoValueFaults_repair :
    let z := wState true 0 0 []
    let q := wState true 1 0 []
    z.status.cValid = true ∧ (∃ n ∈ indicesOf z.build z.cfg (argn z 0), ¬Valued z.mem (cRow z n) (tOf z)) ∧
    kOf q ≤ argn q 0 ∧ argn q 0 < 2 ^ 24 ∧
    ∃ n ∈ indicesOf q.build q.cfg (isiRule q (argn q 0)), ¬Valued q.mem (cRow q n) (tOf q) := by decide +kernel
/-- A received source symbol and a received repair symbol, each without its SYM_RX byte. -/
theorem test_witness_NoValueFaults_decode :
    let z := wState true 1 0 []
    let p := wState true 1 0 ((wReceived 0 0).take 4)
    let q := wState true 1 0 ((wReceived 10 0).take 4)
    argn z 0 ≤ z.build.rxMax ∧ ¬Valued z.mem 0x000300000000 (4 * argn z 0) ∧
    Valued p.mem 0x000300000000 (4 * argn p 0) ∧ (∀ x < argn p 0, esiAt p x < 2 ^ 24) ∧
    (missingRule p (argn p 0)).length ≤ (repairsRule p (argn p 0)).length ∧ ¬Valued p.mem (rxRow p 0) (tOf p) ∧
    esiAt p 0 < kOf p ∧ IsFirst p (argn p 0) (esiAt p 0) 0 ∧
    (missingRule q (argn q 0)).length ≤ (repairsRule q (argn q 0)).length ∧ ¬Valued q.mem (rxRow q 0) (tOf q) ∧
    missingRule q (argn q 0) ≠ [] ∧ 0 ∈ repairsRule q (argn q 0) := by decide +kernel

theorem test_witness_SitCeilAndSitLookup :
    let s := wState true 11 0 []
    let q := wState true 10 0 []
    let z := wState true 56404 0 []
    BuildOk s.build ∧ (∀ r ∈ z.build.sit, r.kp < argn z 0) ∧ wRow ∈ q.build.sit ∧ 1 ≤ argn q 0 ∧ argn q 0 ≤ wRow.kp ∧
    (∀ r ∈ q.build.sit, argn q 0 ≤ r.kp → wRow.kp ≤ r.kp) ∧ wRow.kp = argn q 0 ∧ 1 ≤ argn s 0 ∧ argn s 0 ≤ 56403 ∧
    (∀ r ∈ s.build.sit, r.kp ≠ argn s 0) :=
  ⟨wBuild_ok, by decide, by decide, by decide, by decide, by decide, by decide, by decide, by decide, by decide⟩
theorem test_witness_PartitionResult : ∃ t, argn (wState true 10 3 []) 1 ≠ 0 ∧
    exec .partition (wState true 10 3 []) = .next t ∧ argn (wState true 10 0 []) 1 = 0 := ⟨_, by decide, rfl, by decide⟩
theorem test_witness_RandAndDeg :
    let s := { wState true 0 0 [] with args := #v[1048575, 255, 1, 0, 0, 0, 0, 0] }
    let z := wState true 1048576 256 []
    argn s 1 < 256 ∧ argn s 2 ≠ 0 ∧ argn s 2 = 1 ∧ BuildOk s.build ∧ argn s 0 < 2 ^ 20 ∧ 3 ≤ argn s 1 ∧
    256 ≤ argn z 1 ∧ 2 ^ 20 ≤ argn z 0 :=
  ⟨by decide, by decide, by decide, wBuild_ok, by decide, by decide, by decide, by decide⟩
theorem test_witness_BlkConfigResult :
    let s := wState true 10 2 []
    let z := wState true 11 2 []
    BuildOk s.build ∧ ConfigRow s.build (argn s 0) (argn s 1) wRow ∧ BuildOk z.build ∧
    ∀ r, ¬ConfigRow z.build (argn z 0) (argn z 1) r :=
  ⟨wBuild_ok, by decide, wBuild_ok, fun _ h => absurd h.2.1 (by decide)⟩
theorem test_witness_BlockParameterLaws : MachineOk (wState true 0 0 wMem) ∧ (wState true 0 0 wMem).status.cfgValid = true :=
  ⟨wMem_sound true 0 0, rfl⟩
theorem test_witness_TupleResult : (wState true 0 0 []).status.cfgValid = true ∧ (at3 wBuild 0 0 0).status.cfgValid = false :=
  ⟨rfl, rfl⟩
theorem test_witness_TupleIndicesInRange : MachineOk (wState true 0 0 wMem) ∧ (wState true 0 0 wMem).status.cfgValid = true ∧
    (tupleOf wBuild (wState true 0 0 wMem).cfg 0).d1 ≤ (wState true 0 0 wMem).cfg.p.toNat ∧
    (wState true 0 0 wMem).cfg.w.toNat = 3 := ⟨wMem_sound true 0 0, rfl, by decide +kernel, by decide⟩
theorem test_witness_ConstraintMatrixEntries : MachineOk (wState true 0 0 wMem) ∧
    (wState true 0 0 wMem).status.cfgValid = true ∧ 0 < (wState true 0 0 wMem).cfg.s.toNat ∧
    0 < (wState true 0 0 wMem).cfg.h.toNat ∧ 0 < (wState true 0 0 wMem).cfg.kp.toNat :=
  ⟨wMem_sound true 0 0, rfl, by decide, by decide, by decide⟩
theorem test_witness_BuildAAndRowPattern : MachineOk (wState true 0 0 wMem) ∧ (wState true 0 0 wMem).status.cfgValid = true ∧
    argn (wState true 23 0 []) 0 < mMaxOf wBuild ∧ mMaxOf wBuild ≤ argn (wState true 24 0 []) 0 ∧
    (at3 wBuild 0 0 0).status.cfgValid = false := ⟨wMem_sound true 0 0, rfl, by decide, by decide, rfl⟩
theorem test_witness_LtEncResult :
    let s := wState true 0 0 wMem
    s.status.cfgValid = true ∧ s.status.cValid = true ∧ (wState false 0 0 wMem).status.cValid = false ∧
    ∀ n ∈ indicesOf s.build s.cfg (argn s 0), Valued s.mem (cRow s n) (tOf s) := by decide +kernel
theorem test_witness_LtEncIsThePatternProduct :
    let s := wState true 0 0 wMem
    MachineOk s ∧ s.status.cfgValid = true ∧ ∀ n < lOf s, Valued s.mem (cRow s n) (tOf s) :=
  ⟨wMem_sound true 0 0, rfl, by decide +kernel⟩

theorem test_witness_RowChoice :
    chooseRow ⟨0, 0, 0, 17, 0⟩ (edgeState [[0, 1, 2], [3, 4], [4, 5]]) 0 17 = some (1, 2) ∧
    chooseRow ⟨0, 1, 0, 17, 0⟩ (edgeState [[0, 1, 2]]) 0 17 = some (0, 3) ∧
    chooseRow ⟨0, 0, 0, 17, 0⟩ (edgeState [[]]) 0 17 = none := by decide +kernel
theorem test_witness_ColumnPlacement :
    let st := edgeState [[3, 5, 16]]
    (0 : Nat) < 17 ∧ (17 : Nat) ≤ 17 ∧ 0 < st.a.length ∧ (∀ row ∈ st.a, row.length = 17) ∧
    (∀ row ∈ st.x, row.length = 17) ∧ st.permC.length = 17 ∧ 1 ≤ nzOf st 0 0 17 := by decide +kernel

/-- C0 + C1 = 7, 2·C1 = 4: a square system with the solution C0 = 5, C1 = 2. -/
theorem test_witness_SolverIsRight :
    let m : SolveDims := ⟨0, 0, 1, 2, 1⟩
    BuildOk wBuild ∧ Shaped m [[1, 1], [0, 2], [1, 0]] [[7], [4], [5]] ∧ Symbols 2 1 [[5], [2]] ∧
    IsSolution wBuild [[1, 1], [0, 2], [1, 0]] [[7], [4], [5]] [[5], [2]] 1 ∧
    (∃ out, solve wBuild m [[1, 1], [0, 2], [1, 0]] [[7], [4], [5]] = .ok out) ∧
    Shaped m [[1, 1], [0, 2]] [[7], [4]] ∧ ∃ out, solve wBuild m [[1, 1], [0, 2]] [[7], [4]] = .ok out :=
  ⟨wBuild_ok, by decide, by decide, by decide +kernel, ⟨[(0, [5]), (1, [2])], by decide +kernel⟩, by decide,
    ⟨[(0, [5]), (1, [2])], by decide +kernel⟩⟩
theorem test_witness_SolverFailsExactlyWhenSingular :
    let m : SolveDims := ⟨0, 0, 1, 2, 1⟩
    BuildOk wBuild ∧ Shaped m [[1, 1], [1, 1]] [[7], [4]] ∧
    (∃ x : List Byte, x.length = m.l ∧ (∃ j < m.l, x.getD j 0 ≠ 0) ∧ ∀ row ∈ [[1, 1], [1, 1]], dot wBuild row x = 0) :=
  ⟨wBuild_ok, by decide, [1, 1], by decide, by decide, by decide +kernel⟩

theorem test_witness_PiSolveResult :
    let s := wState false 13 0 (wSystem 1)
    MachineOk s ∧ s.status.cfgValid = true ∧ lOf s ≤ argn s 0 ∧ argn s 0 ≤ mMaxOf s.build ∧
    (∀ r < argn s 0, Valued s.mem (aRow s r) (lOf s) ∧ Valued s.mem (dRow s r) (tOf s)) ∧
    (solve s.build (dimsOf s) (matrixOf s (argn s 0)) (rhsOf s (argn s 0))).isOk = true ∧
    argn (wState false 12 0 []) 0 < lOf s ∧ mMaxOf s.build < argn (wState false 25 0 []) 0 :=
  ⟨wSystem_sound 1 (by decide +kernel) 13, rfl, by decide, by decide, by decide +kernel, by decide +kernel, by decide, by decide⟩

theorem test_witness_BlkEncodeResult :
    let s := wState false 0 0 wMem
    MachineOk s ∧ s.status.cfgValid = true ∧ (∀ e < kOf s, Valued s.mem (srcRow s e) (tOf s)) ∧
    (solve s.build (dimsOf s) (constraintMatrix s.build s.cfg)
      (encodeD s ((List.range (kOf s)).map fun e => symbolAt s.mem (srcRow s e) (tOf s)))).isOk = true :=
  ⟨wMem_sound false 0 0, rfl, by decide +kernel, by decide +kernel⟩
theorem test_witness_EncodingIsSystematic : ∃ s t : State, MachineOk s ∧ s.status.cfgValid = true ∧ s.status.err = false ∧
    exec .blkEncode s = .next t ∧ t.status.err = false := by
  obtain ⟨t, h, ht⟩ := next_of_shows (p := fun t => !t.status.err) (o := exec .blkEncode (wState false 0 0 wMem))
    (by decide +kernel)
  exact ⟨_, t, wMem_sound false 0 0, rfl, rfl, h, by simpa using ht⟩
theorem test_witness_BlkSymbolResult :
    let s := wState false 0 0 wMem
    let q := wState true 0xFFFFFF 0 wMem
    let z := wState true 0x1000000 0 wMem
    s.status.cfgValid = true ∧ argn s 0 < 2 ^ 24 ∧ argn s 0 < kOf s ∧ Valued s.mem (srcRow s (argn s 0)) (tOf s) ∧
    argn q 0 < 2 ^ 24 ∧ kOf q ≤ argn q 0 ∧ q.status.cValid = true ∧ 2 ^ 24 ≤ argn z 0 ∧ s.status.cValid = false ∧
    ∀ n ∈ indicesOf q.build q.cfg (isiRule q (argn q 0)), Valued q.mem (cRow q n) (tOf q) := by decide +kernel
theorem test_witness_BlkDecodeWithoutASolve :
    let s := wState true 1 0 (wReceived 0 0x53)
    let z := wState true 0 0 []
    let q := wState true 1 0 [(esi0, 0), (esi0 + 1, 0), (esi0 + 2, 0), (esi0 + 3, 1)]
    MachineOk s ∧ s.status.cfgValid = true ∧ argn s 0 ≤ s.build.rxMax ∧ RxValued s (argn s 0) ∧
    (∀ n < argn s 0, esiAt s n < 2 ^ 24) ∧ (∀ e < kOf s, ∃ n < argn s 0, esiAt s n = e) ∧ IsFirst s (argn s 0) 0 0 ∧
    (repairsRule z (argn z 0)).length < (missingRule z (argn z 0)).length ∧
    Valued q.mem 0x000300000000 (4 * argn q 0) ∧ (∃ n < argn q 0, 2 ^ 24 ≤ esiAt q n) ∧
    s.build.rxMax < argn (wState true 11 0 []) 0 :=
  ⟨by
    have h := wReceived_sound 0 0x53 1
    exact ⟨h.build, by decide, h.config, h.canonical, h.banks, h.copyCanonical, h.copyBanks⟩, rfl, by decide, by decide +kernel, by decide +kernel,
    by decide +kernel, by decide +kernel, by decide +kernel, by decide +kernel, by decide +kernel, by decide⟩

/-- One repair symbol for the one missing source symbol. -/
theorem test_witness_BlkDecodeFullPath :
    let s := wState false 1 0 (wReceived 10 0x99)
    MachineOk s ∧ s.status.cfgValid = true ∧ argn s 0 ≤ s.build.rxMax ∧ RxValued s (argn s 0) ∧
    (∀ n < argn s 0, esiAt s n < 2 ^ 24) ∧ missingRule s (argn s 0) ≠ [] ∧
    (missingRule s (argn s 0)).length ≤ (repairsRule s (argn s 0)).length ∧
    (solve s.build (dimsOf s) ((List.range 13).map (decodeRow s (missingRule s 1) (repairsRule s 1)))
      ((List.range 13).map (decodeSym s 1 (missingRule s 1) (repairsRule s 1)))).isOk = true :=
  ⟨wReceived_sound 10 0x99 1, rfl, by decide, by decide +kernel, by decide +kernel, by decide +kernel, by decide +kernel,
    by decide +kernel⟩

/-- The intermediate symbols of the block whose one source symbol is 0x53. -/
def wC : List Symbol :=
  [[168], [168], [168], [0], [168], [0], [0], [251], [200], [0], [168], [96], [200]]

/-- BLK_ENCODE, then `enc` of the source symbol's ISI and of a padding ISI (V61). -/
theorem test_blk_encode : shows (fun t => [t.enc 0, t.enc 9]) (exec .blkEncode (wState false 0 0 wMem)) =
    some [some [0x53], some [0]] := by decide +kernel

/-- BLK_DECODE of one repair symbol of that block recovers it over a lost source row; RES0 = 1, RES1 = L = 13. -/
theorem test_blk_decode : shows (fun t => (rowOf .symSrc 0 t, resOf t))
    (exec .blkDecode (wState false 1 0 ((wReceived 10 168).write src0 0))) =
    some (some [0x53], [1, 13, 0, 0, 0, 0, 0, 0]) := by decide +kernel

theorem test_witness_DecodingRecoversTheBlock :
    let s := wState false 1 0 (wReceived 10 168)
    (MachineOk s ∧ s.status.cfgValid = true ∧ s.status.err = false ∧ Symbols (kOf s) (tOf s) [[0x53]] ∧
      Symbols (lOf s) (tOf s) wC ∧
      IsSolution s.build (constraintMatrix s.build s.cfg) (encodeD s [[0x53]]) wC (tOf s) ∧ RxValued s (argn s 0) ∧
      (∀ q < argn s 0, symbolAt s.mem (rxRow s q) (tOf s) =
        if esiAt s q < kOf s then [[0x53]].getD (esiAt s q) [] else encOver s wC (isiRule s (esiAt s q)))) ∧
    ∃ t, exec .blkDecode s = .next t ∧ t.status.err = false := by
  refine ⟨⟨wReceived_sound 10 168 1, rfl, rfl, by decide, by decide, by decide +kernel, by decide +kernel,
    by decide +kernel⟩, ?_⟩
  obtain ⟨t, h, ht⟩ := next_of_shows (p := fun t => !t.status.err) (o := exec .blkDecode (wState false 1 0 (wReceived 10 168)))
    (by decide +kernel)
  exact ⟨t, h, by simpa using ht⟩

end Sys2Proof.Tests
end

section
/-! PROOFS. The register file as the host sees it: where an access goes, and what one host event does (spec/10_state.md R21 to
R29, R34, R35, R50; 20_memory.md R62, R65, R66). -/

namespace Sys2Proof.Machine
open Sys2Proof.Claims

/-! ### Addresses and the registers they name -/

/-- A 4-byte access at a 4-byte-aligned offset of the register file goes to the register there (R62, R65). -/
theorem accessTarget_register (b : Build) {off : Nat} (hlt : off < 0x1000) (hal : off % 4 = 0) :
    accessTarget b off 4 = some (.reg (regAt off)) := by
  simp [accessTarget, widthOk, hlt, hal]

/-- An access that goes to a register is a 4-byte access at its 4-byte-aligned offset (R62, R65). -/
theorem accessTarget_eq_reg {b : Build} {a n : Nat} {r : RegSel} (h : accessTarget b a n = some (.reg r)) :
    n = 4 ∧ a % 4 = 0 ∧ a < 0x1000 ∧ regAt a = r := by
  unfold accessTarget at h
  split at h
  · rename_i hlt
    split at h
    · rename_i hw
      obtain ⟨hn, hal⟩ : n = 4 ∧ a % 4 = 0 := by simpa [widthOk] using hw
      exact ⟨hn, hal, hlt, by simpa using h⟩
    · cases h
  · split at h
    · cases h
    · split at h <;> simp at h

theorem regAt_arg (n : Fin 8) : regAt (0x010 + 4 * n.val) = .arg n := by
  decide +revert

theorem regAt_res (n : Fin 8) : regAt (0x030 + 4 * n.val) = .res n := by
  decide +revert

theorem regAt_cfg (n : Fin 12) : regAt (0x050 + 4 * n.val) = .cfg n := by
  decide +revert

/-- The offsets past M_ROWS, and 0x00C, are reserved (R50). -/
theorem regAt_reserved {off : Nat} (h : off = 0x00C ∨ 0x084 ≤ off) : regAt off = .reserved := by
  unfold regAt
  rcases h with rfl | h
  · rfl
  · repeat rw [dif_neg (by omega)]
    repeat rw [if_neg (by omega)]

/-- Only the offsets 0x010 to 0x02C name ARG registers. -/
theorem offset_of_regAt_arg {off : Nat} {n : Fin 8} (hal : off % 4 = 0) (h : regAt off = .arg n) :
    off = 0x010 + 4 * n.val := by
  unfold regAt at h
  split at h
  · cases h
  split at h
  · cases h
  split at h
  · cases h
  split at h
  · cases h
    show off = 0x010 + 4 * ((off - 0x010) / 4)
    omega
  split at h
  · cases h
  split at h
  · cases h
  split at h <;> cases h

/-- The registers whose value no host write changes (R21, R29, R34, R35, R50). -/
def RegSel.readOnly (r : RegSel) : Prop := r ≠ .cmd ∧ r ≠ .status ∧ ∀ n, r ≠ .arg n

theorem regAt_readOnly {off : Nat} (h : off = 0x000 ∨ off = 0x00C ∨ 0x030 ≤ off) : (regAt off).readOnly := by
  rcases h with rfl | rfl | h
  · simp [regAt, RegSel.readOnly]
  · simp [regAt, RegSel.readOnly]
  · unfold regAt
    rw [if_neg (by omega), if_neg (by omega), if_neg (by omega), dif_neg (by omega)]
    split_ifs <;> simp [RegSel.readOnly]

theorem State.writeReg_readOnly {s : State} {r : RegSel} (hr : r.readOnly) (hb : s.status.busy = false) (v : Word) :
    s.writeReg r v = { s with bus := .written } := by
  obtain ⟨hcmd, hstatus, harg⟩ := hr
  cases r with
  | cmd => exact absurd rfl hcmd
  | status => exact absurd rfl hstatus
  | arg n => exact absurd rfl (harg n)
  | id | res _ | cfg _ | mRows | reserved => simp [State.writeReg, hb]

/-! ### One host access to a register -/

theorem State.hostRead_register (s : State) {off : Nat} (hlt : off < 0x1000) (hal : off % 4 = 0) :
    s.hostRead off 4 =
      if s.status.busy && !readableWhileBusy (regAt off) then s.refuseReadReg (regAt off) off 4
      else { s with bus := .data ((s.readReg (regAt off)).setWidth 64) } := by
  rw [State.hostRead, accessTarget_register _ hlt hal]

theorem State.hostWrite_register (s : State) {off : Nat} (hlt : off < 0x1000) (hal : off % 4 = 0) (v : BitVec 64) :
    s.hostWrite off 4 v = s.writeReg (regAt off) (v.setWidth 32) := by
  rw [State.hostWrite, accessTarget_register _ hlt hal]

/-- A register read does not look at what the host does next. -/
theorem State.refuseReadReg_setHost (s : State) (rest : List HostEvent) (r : RegSel) (a n : Nat) :
    State.refuseReadReg { s with host := rest } r a n = { s.refuseReadReg r a n with host := rest } := by
  cases r <;> rfl

/-- Nor does a host read. -/
theorem State.hostRead_setHost (s : State) (rest : List HostEvent) (a n : Nat) :
    State.hostRead { s with host := rest } a n = { s.hostRead a n with host := rest } := by
  unfold State.hostRead
  dsimp only
  split
  · rfl
  · split
    · exact State.refuseReadReg_setHost s rest _ a n
    · rfl
  · split <;> rfl

/-- A register write does not look at what the host does next. -/
theorem State.writeReg_setHost (s : State) (rest : List HostEvent) (r : RegSel) (v : Word) :
    State.writeReg { s with host := rest } r v = { s.writeReg r v with host := rest } := by
  cases r with
  | status => rfl
  | cmd | arg _ | id | res _ | cfg _ | mRows | reserved => simp only [State.writeReg]; split <;> rfl

/-- Nor does a host write. -/
theorem State.hostWrite_setHost (s : State) (rest : List HostEvent) (a n : Nat) (v : BitVec 64) :
    State.hostWrite { s with host := rest } a n v = { s.hostWrite a n v with host := rest } := by
  unfold State.hostWrite
  dsimp only
  split
  · rfl
  · exact State.writeReg_setHost s rest _ _
  · split
    · rfl
    · split <;> rfl

/-- A step in which the host reads is the read. -/
theorem hostDoes_read (s : State) (a : BitVec 48) (n : Nat) : HostDoes s (.read a n) (s.hostRead a.toNat n) := by
  intro rest hh
  rw [step, takeTurn, hh, ← State.hostRead_setHost]

/-- A step in which the host writes is the write. -/
theorem hostDoes_write (s : State) (a : BitVec 48) (n : Nat) (v : BitVec 64) :
    HostDoes s (.write a n v) (s.hostWrite a.toNat n v) := by
  intro rest hh
  rw [step, takeTurn, hh, ← State.hostWrite_setHost]

theorem toNat_registerOffset {off : Nat} (hlt : off < 0x1000) : (BitVec.ofNat 48 off).toNat = off := by
  rw [BitVec.toNat_ofNat, Nat.mod_eq_of_lt (by omega)]

/-- A register reads as what it holds where its read is admitted (R66, R68). -/
theorem reads_register (s : State) {off : Nat} (hlt : off < 0x1000) (hal : off % 4 = 0)
    (hadm : s.status.busy = false ∨ readableWhileBusy (regAt off) = true) : Reads s off (s.readReg (regAt off)) := by
  have hdoes := hostDoes_read s (BitVec.ofNat 48 off) 4
  rw [toNat_registerOffset hlt, State.hostRead_register s hlt hal, if_neg ?_] at hdoes
  · exact hdoes
  · rcases hadm with h | h <;> simp [h]

/-- A host write at a register's offset is the write to that register. -/
theorem hostDoes_writeReg (s : State) {off : Nat} (hlt : off < 0x1000) (hal : off % 4 = 0) (v : BitVec 64) :
    HostDoes s (.write (BitVec.ofNat 48 off) 4 v) (s.writeReg (regAt off) (v.setWidth 32)) := by
  have hdoes := hostDoes_write s (BitVec.ofNat 48 off) 4 v
  rwa [toNat_registerOffset hlt, State.hostWrite_register s hlt hal] at hdoes

theorem cfgList_getD (c : BlockParams) (n : Fin 12) : (cfgList c).getD n.val 0 = c.words[n] := by
  match n with
  | 0 | 1 | 2 | 3 | 4 | 5 | 6 | 7 | 8 | 9 | 10 | 11 => rfl

/-- Settles O8: every clause is a register read or write at an offset whose register is known. -/
theorem registerFile : Obligations.RegisterFile := by
  unfold Obligations.RegisterFile
  intro s v hb
  have reads (off : Nat) (r : RegSel) (hreg : regAt off = r) (hlt : off < 0x1000) (hal : off % 4 = 0) :
      Reads s off (s.readReg r) := hreg ▸ reads_register s hlt hal (.inl hb)
  refine ⟨reads 0x000 .id rfl (by omega) rfl, fun n => ⟨?_, ?_, ?_⟩, fun n hn => ?_, reads 0x080 .mRows rfl (by omega) rfl,
    fun off hlt hal hoff => reads off .reserved (regAt_reserved hoff) hlt hal, fun off hlt hal hoff => ?_⟩
  · exact reads _ (.arg n) (regAt_arg n) (by omega) (by omega)
  · exact reads _ (.res n) (regAt_res n) (by omega) (by omega)
  · have hdoes := hostDoes_writeReg s (off := 0x010 + 4 * n.val) (by omega) (by omega) v
    rwa [regAt_arg, State.writeReg, if_neg (by simp [hb])] at hdoes
  · rw [cfgList_getD s.cfg ⟨n, hn⟩]
    exact reads _ (.cfg ⟨n, hn⟩) (regAt_cfg ⟨n, hn⟩) (by omega) (by omega)
  · have hdoes := hostDoes_writeReg s hlt hal v
    rwa [State.writeReg_readOnly (regAt_readOnly hoff) hb] at hdoes

/-! ### Issue and execution of a command -/

/-- The core's turn while BUSY = 1 runs the latched command when it decodes (30_encoding.md R87). -/
theorem step_of_coreMoves {s s1 : State} {i : Instr} (hb : s.status.busy = true) (hm : CoreMoves s s1)
    (hd : decode s.cmd = .ok i) : step s = exec i s1 := by
  rcases hm with ⟨hh, rfl⟩ | ⟨rest, hh, rfl⟩
  · rw [step, takeTurn, hh]
    simp [coreTurn, hb, hd]
  · rw [step, takeTurn, hh]
    simp [coreTurn, hb, hd]

theorem tableWord_toNat (w : Word) : tableWord 32 w.toNat = some w := by
  have hlt := w.isLt
  simp [tableWord, Nat.mod_eq_of_lt hlt, hlt]

/-- A CMD write with BUSY = 0 and ERR = 0 issues the word (R22). -/
theorem hostDoes_issue {s : State} (hb : s.status.busy = false) (he : s.status.err = false) (v : BitVec 64) :
    HostDoes s (.write 0x004 4 v) { issued s (v.setWidth 32) with bus := .written } := by
  have hdoes := hostDoes_writeReg s (off := 0x004) (by omega) rfl v
  rwa [show regAt 0x004 = .cmd from rfl, State.writeReg, if_neg (by simp [hb, he])] at hdoes

/-- Settles O3: the core's turn, and the two ways in which a word is issued before it. -/
theorem stepRunsTheDecodedCommand : Obligations.StepRunsTheDecodedCommand := by
  unfold Obligations.StepRunsTheDecodedCommand
  refine ⟨fun s s1 i hb hm hd => step_of_coreMoves hb hm hd, fun s w i hd => ?_, fun s w i rest hb he hd hh => ?_⟩
  · rw [State.withFetchWord, tableWord_toNat]
    exact step_of_coreMoves (s := s.placeCommand w) rfl (.inr ⟨s.host, rfl, rfl⟩) hd
  · have hissue := hostDoes_issue hb he (w.setWidth 64) _ hh
    rw [show (w.setWidth 64).setWidth 32 = w by simp] at hissue
    exact ⟨_, hissue, rfl, step_of_coreMoves rfl (.inr ⟨rest, rfl, rfl⟩) hd⟩

/-- Settles O5: the two answers to a CMD write, the core's turn, and the two answers to a CMD read. -/
theorem cmdWriteIssues : Obligations.CmdWriteIssues := by
  unfold Obligations.CmdWriteIssues
  intro s v
  refine ⟨fun hb he => hostDoes_issue hb he v, fun hrefuse => ?_, fun s1 i hb hm hd => step_of_coreMoves hb hm hd, ?_⟩
  · have hdoes := hostDoes_writeReg s (off := 0x004) (by omega) rfl v
    rwa [show regAt 0x004 = .cmd from rfl, State.writeReg, if_pos (by simpa using hrefuse)] at hdoes
  · have hdoes := hostDoes_read s 0x004 4
    rw [show (0x004 : BitVec 48).toNat = 0x004 from rfl, State.hostRead_register s (by omega) rfl,
      show regAt 0x004 = .cmd from rfl] at hdoes
    split at hdoes
    · exact ⟨.refusedRead 0, true, .inr rfl, hdoes⟩
    · exact ⟨.data 0, s.status.ovr, .inl rfl, hdoes⟩

/-! ### STATUS -/

/-- A bit field of a word, as a bit vector (00_scope.md R11). -/
theorem bits_eq_extractLsb' (w : Word) (lo n : Nat) : bits w lo n = (w.extractLsb' lo n).toNat := by
  rw [bits, BitVec.extractLsb'_toNat, Nat.shiftRight_eq_div_pow]

/-- Every bit of the word that the host reads of STATUS (R23). -/
theorem Status.getLsbD_toWord (f : Status) (n : Nat) :
    f.toWord.getLsbD n =
      if n = 0 then f.busy else if n = 1 then f.done else if n = 2 then f.err else if n = 3 then f.ovr
      else if n = 4 then f.cfgValid else if n = 5 then f.cValid
      else decide (8 ≤ n) && f.errCode.getLsbD (n - 8) := by
  -- the concatenation at its own width, as the lemma on concatenations wants it
  have fields : f.toWord.getLsbD n = BitVec.getLsbD (w := 16 + 8 + 2 + 1 + 1 + 1 + 1 + 1 + 1)
      (0#16 ++ f.errCode ++ 0#2 ++ BitVec.ofBool f.cValid ++ BitVec.ofBool f.cfgValid ++ BitVec.ofBool f.ovr ++
        BitVec.ofBool f.err ++ BitVec.ofBool f.done ++ BitVec.ofBool f.busy) n := rfl
  rw [fields]
  simp only [BitVec.getLsbD_append]
  match n with
  | 0 | 1 | 2 | 3 | 4 | 5 | 6 | 7 => simp
  | n + 8 =>
    simpa +arith using fun h : f.errCode.getLsbD n = true => BitVec.lt_of_getLsbD h

theorem Status.bits_toWord_reserved (f : Status) : bits f.toWord 6 2 = 0 := by
  have hzero : f.toWord.extractLsb' 6 2 = 0#2 := by
    ext n hn
    rw [BitVec.getElem_extractLsb', Status.getLsbD_toWord]
    repeat rw [if_neg (by omega)]
    simp [show ¬8 ≤ 6 + n by omega]
  rw [bits_eq_extractLsb', hzero]
  rfl

theorem Status.bits_toWord_errCode (f : Status) : bits f.toWord 8 8 = f.errCode.toNat := by
  have hcode : f.toWord.extractLsb' 8 8 = f.errCode := by
    ext n hn
    rw [BitVec.getElem_extractLsb', Status.getLsbD_toWord]
    repeat rw [if_neg (by omega)]
    simp [BitVec.getLsbD_eq_getElem hn]
  rw [bits_eq_extractLsb', hcode]

theorem Status.bits_toWord_top (f : Status) : bits f.toWord 16 16 = 0 := by
  have hzero : f.toWord.extractLsb' 16 16 = 0#16 := by
    ext n hn
    rw [BitVec.getElem_extractLsb', Status.getLsbD_toWord]
    repeat rw [if_neg (by omega)]
    simp [BitVec.getLsbD_of_ge f.errCode (16 + n - 8) (by omega)]
  rw [bits_eq_extractLsb', hzero]
  rfl

/-- Settles O6: STATUS is a register that is read and written at any time; the rest is the place of each field. -/
theorem statusRegister : Obligations.StatusRegister := by
  unfold Obligations.StatusRegister
  refine ⟨fun f => ⟨f.getLsbD_toWord 0, f.getLsbD_toWord 1, f.getLsbD_toWord 2, f.getLsbD_toWord 3, f.getLsbD_toWord 4,
    f.getLsbD_toWord 5, Status.bits_toWord_reserved f, Status.bits_toWord_errCode f,
    Status.bits_toWord_top f⟩, fun s => reads_register s (off := 0x008) (by omega) rfl (.inr rfl), fun s v => ?_,
    fun s hs he => hs.status.1 he, rfl⟩
  have hdoes := hostDoes_writeReg s (off := 0x008) (by omega) rfl v
  rw [show regAt 0x008 = .status from rfl, State.writeReg] at hdoes
  simpa [Status.writeOneToClear] using hdoes

end Sys2Proof.Machine
end

section
/-! PROOFS. EXP_ROM and LOG_ROM of a legal build: the powers of the generator and their exponents (spec/10_state.md R30, R31;
40_gf256.md R100). -/

namespace Sys2Proof.Machine
open Sys2Proof.Claims

/-! ### What the legality of the tables says of one entry -/

section
variable {poly : Nat} {exp log : List Byte}

theorem GfTablesOk.exp_zero (h : GfTablesOk poly exp log) : exp.getD 0 0 = 1 := by
  obtain ⟨_, _, hhead, _⟩ := h
  rw [List.head?_eq_getElem?] at hhead
  simp [List.getD_eq_getElem?_getD, hhead]

/-- Each entry of the first period is the one before times the generator. -/
theorem GfTablesOk.exp_succ (h : GfTablesOk poly exp log) {n : Nat} (hn : n + 1 < 255) :
    exp.getD (n + 1) 0 = gfTimesAlpha poly (exp.getD n 0) := by
  obtain ⟨hexp, _, _, _, _, hchain, _⟩ := h
  have hstep := List.isChain_iff_getElem.1 hchain n (by simp [hexp]; omega)
  simpa [List.getD_eq_getElem?_getD, hexp, show n + 1 < 510 by omega, show n < 510 by omega] using hstep

/-- The second period repeats the first. -/
theorem GfTablesOk.exp_add_period (h : GfTablesOk poly exp log) {n : Nat} (hn : n < 255) :
    exp.getD (n + 255) 0 = exp.getD n 0 := by
  obtain ⟨_, _, _, _, hrepeat, _⟩ := h
  have hentry := congrArg (fun l => l.getD n 0) hrepeat
  simpa [List.getD_eq_getElem?_getD, List.getElem?_drop, List.getElem?_take, hn, Nat.add_comm] using hentry

/-- Every entry is the one at its index modulo the period. -/
theorem GfTablesOk.exp_mod (h : GfTablesOk poly exp log) {n : Nat} (hn : n < 510) :
    exp.getD n 0 = exp.getD (n % 255) 0 := by
  by_cases hlow : n < 255
  · rw [Nat.mod_eq_of_lt hlow]
  · obtain ⟨k, rfl⟩ : ∃ k, n = k + 255 := ⟨n - 255, by omega⟩
    rw [h.exp_add_period (by omega), Nat.add_mod_right, Nat.mod_eq_of_lt (by omega)]

/-- The first period holds the powers of the generator (R30, R100). -/
theorem GfTablesOk.exp_eq_alphaPow (h : GfTablesOk poly exp log) {n : Nat} (hn : n < 255) :
    exp.getD n 0 = alphaPow poly n := by
  induction n with
  | zero => exact h.exp_zero
  | succ n ih => rw [h.exp_succ hn, ih (by omega), alphaPow]

/-- LOG_ROM inverts the first period of EXP_ROM (R31). -/
theorem GfTablesOk.log_exp (h : GfTablesOk poly exp log) {e : Nat} (he : e < 255) :
    (log.getD ((exp.getD e 0).toNat - 1) 0).toNat = e := by
  obtain ⟨hexp, _, _, _, _, _, hlog, _⟩ := h
  have hentry := congrArg (fun l => l[e]?) hlog
  simpa [List.getElem?_take, he, List.getD_eq_getElem?_getD, hexp, show e < 510 by omega] using hentry

/-- EXP_ROM at the logarithm of a nonzero byte is that byte (R31). -/
theorem GfTablesOk.exp_log (h : GfTablesOk poly exp log) {x : Byte} (hx : x ≠ 0) :
    exp.getD (log.getD (x.toNat - 1) 0).toNat 0 = x := by
  obtain ⟨_, hlen, _, _, _, _, _, hexp⟩ := h
  have hlt := x.isLt
  have hpos : x.toNat ≠ 0 := fun h0 => hx (BitVec.eq_of_toNat_eq h0)
  have hentry := congrArg (fun l => l[x.toNat - 1]?) hexp
  rw [List.getElem?_map, List.getElem?_take_of_lt (by omega), List.getElem?_eq_getElem (by omega),
    List.getElem?_range' (by omega)] at hentry
  apply BitVec.eq_of_toNat_eq
  rw [List.getD_eq_getElem log _ (by omega)]
  simp only [Option.map_some, Option.some.injEq] at hentry
  omega

/-- The logarithm of a nonzero byte lies in the first period: 255 would be that of EXP_ROM[255] = EXP_ROM[0] (R31). -/
theorem GfTablesOk.log_lt (h : GfTablesOk poly exp log) {x : Byte} (hx : x ≠ 0) :
    (log.getD (x.toNat - 1) 0).toNat < 255 := by
  have hbyte := (log.getD (x.toNat - 1) 0).isLt
  have hinv := h.log_exp (Nat.mod_lt (log.getD (x.toNat - 1) 0).toNat (by omega : 255 > 0))
  rw [← h.exp_mod (by omega), h.exp_log hx] at hinv
  omega

end

/-- Settles O30: the two periods of EXP_ROM, and LOG_ROM as the inverse of the first. -/
theorem fieldTables : Obligations.FieldTables := by
  unfold Obligations.FieldTables
  intro b hb
  have h : GfTablesOk b.gfPoly b.expRom b.logRom := hb.2
  refine ⟨h.1, h.2.1, fun n hn => ?_, fun x hx => ⟨Nat.le_of_lt_succ (h.log_lt hx), fun e he => ⟨?_, ?_⟩⟩, ?_⟩
  · rw [h.exp_mod hn, h.exp_eq_alphaPow (Nat.mod_lt n (by omega))]
  · rintro rfl
    exact (h.log_exp (Nat.lt_succ_of_le he)).symm
  · rintro rfl
    exact h.exp_log hx
  · obtain ⟨_, hlen, _, hlast, _⟩ := h
    rw [List.getLast?_eq_getElem?, hlen] at hlast
    simp [List.getD_eq_getElem?_getD, hlast]

end Sys2Proof.Machine
end

section
/-! PROOFS. What stays inside its bank: the sizes of a configured block (spec/41_tables.md R144, R152), the rows that commands
store (20_memory.md R61, R67), and what the solver hands to SYM_C (44_pi_solver.md R220 to R236). -/

namespace Sys2Proof.Machine

/-! ### The sizes of a configured block -/

/-- The sizes of the block fit the build (41_tables.md R152), and L = K' + S + H did not wrap (R144). -/
structure BlockFits (b : Build) (c : BlockParams) : Prop where
  k : c.k.toNat ≤ b.kMax
  t : c.t.toNat ≤ b.tMax
  l : c.l.toNat ≤ b.lMax
  rows : c.s.toNat + c.h.toNat + c.kp.toNat = c.l.toNat

theorem toNat_word {n : Nat} (h : n < 2 ^ 32) : (word n).toNat = n := by
  rw [BitVec.toNat_ofNat, Nat.mod_eq_of_lt h]

theorem ConfigOk.blockFits {b : Build} {c : BlockParams} (hb : BuildOk b) (hc : ConfigOk b c) : BlockFits b c := by
  obtain ⟨⟨⟨_, hkMax, _, htMax, hlMax, _⟩, _⟩, _⟩ := hb
  obtain ⟨k, t, r, _, _, hrow, rfl⟩ := hc
  obtain ⟨_, hk, _, ht, _, _, _, hl⟩ := configRow_some hrow
  have value {n : Nat} (hn : n ≤ 65536) : (word n).toNat = n := toNat_word (by omega)
  constructor
  · exact (value (n := k) (by omega)).trans_le hk
  · exact (value (n := t) (by omega)).trans_le ht
  · exact (value (n := r.kp + r.s + r.h) (by omega)).trans_le hl
  · show (word r.s).toNat + (word r.h).toNat + (word r.kp).toNat = (word (r.kp + r.s + r.h)).toNat
    rw [value (by omega), value (by omega), value (by omega), value (by omega)]
    omega

theorem MachineOk.blockFits {s : State} (hs : MachineOk s) (hv : s.status.cfgValid = true) : BlockFits s.build s.cfg :=
  (hs.config hv).blockFits hs.build

/-! ### Bytes stored in a bank lie in it -/

section
variable {b : Build} {core : Bool} {m : Memory} {r : Region}

theorem Region.holds_iff {a n : Nat} : r.holds b a n = true ↔ r.base ≤ a ∧ a + n ≤ r.base + r.size b := by
  simp [Region.holds]

/-- A store inside one bank keeps the banks inside the populated map. -/
theorem BanksOk.writeBytes (h : BanksOk b core m) (hr : r.coreOnly = core) {a : Nat} {vs : List Byte}
    (hin : r.holds b a vs.length = true) : BanksOk b core (m.writeBytes a vs) := by
  intro x hx
  rcases Memory.mem_writeBytes hx with hnew | hold
  · rw [Region.holds_iff] at hin
    exact ⟨r, Region.holds_iff.2 (by omega), hr⟩
  · exact h x hold

theorem BanksOk.clear (h : BanksOk b core m) (p : Nat → Bool) : BanksOk b core (m.clear p) :=
  fun x hx => h x (List.mem_of_mem_filter hx)

/-- A row below `n` of rows `stride` bytes apart ends within `n * stride` bytes. -/
theorem row_add_le {row n stride len : Nat} (hrow : row < n) (hlen : len ≤ stride) :
    row * stride + len ≤ n * stride :=
  calc row * stride + len ≤ (row + 1) * stride := by rw [Nat.succ_mul]; omega
    _ ≤ n * stride := Nat.mul_le_mul_right _ hrow

/-- The first bytes of a row of a symbol bank lie in the bank (20_memory.md R61, 40_gf256.md R120). -/
theorem symRow_holds {row len : Nat} (hrow : row < bankRows b r) (hlen : len ≤ b.tMax) :
    r.holds b (symRow b r row) len = true := by
  have hend := row_add_le hrow hlen
  have hsize : bankRows b r * b.tMax ≤ r.size b := by cases r <;> simp [bankRows, Region.size]
  rw [Region.holds_iff, symRow]
  omega

/-- The first bytes of a row of MAT_A lie in it (R61). -/
theorem matRow_holds {row len : Nat} (hrow : row < b.mMax) (hlen : len ≤ b.lMax) :
    Region.matA.holds b (matRow b .matA row) len = true := by
  have hend := row_add_le hrow hlen
  rw [Region.holds_iff, matRow, Region.size]
  omega

end

/-- Symbols with their rows, all of which fit a bank. -/
def RowsFit (b : Build) (r : Region) (l : List (Nat × Symbol)) : Prop :=
  ∀ q ∈ l, q.1 < bankRows b r ∧ q.2.length ≤ b.tMax

theorem State.writeSymRows_banksOk {s : State} {r : Region} (hr : r.coreOnly = false) {l : List (Nat × Symbol)}
    (hl : RowsFit s.build r l) (h : BanksOk s.build false s.mem) : BanksOk s.build false (s.writeSymRows r l).mem := by
  induction l generalizing s with
  | nil => exact h
  | cons q l ih =>
    obtain ⟨hrow, hlen⟩ := hl q List.mem_cons_self
    exact ih (s := s.writeSymRow r q.1 q.2) (fun p hp => hl p (List.mem_cons_of_mem _ hp))
      (h.writeBytes hr (symRow_holds hrow hlen))

theorem State.writeMatrix_banksOk {s : State} {row : Nat} {l : List Row} (hrows : row + l.length ≤ s.build.mMax)
    (hl : ∀ v ∈ l, v.length ≤ s.build.lMax) (h : BanksOk s.build false s.mem) :
    BanksOk s.build false (s.writeMatrix row l).mem := by
  induction l generalizing s row with
  | nil => exact h
  | cons v l ih =>
    rw [List.length_cons] at hrows
    exact ih (s := s.setMem (s.mem.writeBytes (matRow s.build .matA row) v)) (row := row + 1)
      (by rw [State.setMem_build]; omega) (fun w hw => hl w (List.mem_cons_of_mem _ hw))
      (h.writeBytes rfl (matRow_holds (by omega) (hl v List.mem_cons_self)))

/-! ### Lengths of symbols and rows -/

theorem length_xorBytes_le (x y : List Byte) : (xorBytes x y).length ≤ x.length := by
  rw [xorBytes, List.length_zipWith]
  exact Nat.min_le_left _ _

theorem length_axpyBytes_le (b : Build) (x : List Byte) (beta : Byte) (y : List Byte) :
    (axpyBytes b x beta y).length ≤ x.length := length_xorBytes_le _ _

@[simp] theorem length_zeroBytes (n : Nat) : (zeroBytes n).length = n := List.length_replicate

theorem length_combine_le (b : Build) (n : Nat) (coeffs : List Byte) (rows : List (List Byte)) :
    (combine b n coeffs rows).length ≤ n := by
  induction coeffs generalizing rows with
  | nil => rw [combine, length_zeroBytes]
  | cons c cs ih =>
    cases rows with
    | nil => rw [combine, length_zeroBytes]
    | cons r rs => exact (length_axpyBytes_le b _ c r).trans (ih rs)

theorem length_toggleAll (ns : List Nat) (row : Row) : (toggleAll ns row).length = row.length := by
  induction ns generalizing row with
  | nil => rfl
  | cons n ns ih => rw [toggleAll, ih, List.length_modify]

theorem length_patternOf (b : Build) (c : BlockParams) (x : Nat) : (patternOf b c x).length = c.l.toNat := by
  rw [patternOf, length_toggleAll, length_zeroBytes]

theorem length_constraintMatrix (b : Build) (c : BlockParams) :
    (constraintMatrix b c).length = c.s.toNat + c.h.toNat + c.kp.toNat := by
  simp [constraintMatrix, Nat.add_assoc]

theorem length_of_mem_constraintMatrix {b : Build} {c : BlockParams} {row : Row} (h : row ∈ constraintMatrix b c) :
    row.length = c.l.toNat := by
  simp only [constraintMatrix, List.mem_append, List.mem_map] at h
  rcases h with (⟨r, _, rfl⟩ | ⟨r, _, rfl⟩) | ⟨x, _, rfl⟩
  · simp
  · simp
  · exact length_patternOf b c x

theorem State.length_xorRowsC_le {s : State} {ns : List Nat} {acc v : Symbol} (h : s.xorRowsC ns acc = some v) :
    v.length ≤ acc.length := by
  induction ns generalizing acc with
  | nil => cases h; exact Nat.le_refl _
  | cons n ns ih =>
    rw [State.xorRowsC] at h
    split at h
    · cases h
    · exact (ih h).trans (length_xorBytes_le _ _)

/-- `enc(X)` is at most T bytes long (43_lt_encoder.md R210). -/
theorem State.length_enc_le {s : State} {x : Nat} {v : Symbol} (h : s.enc x = some v) : v.length ≤ s.symLen := by
  simpa using State.length_xorRowsC_le h

/-- The recovered symbols are those of the missing ESIs, at most T bytes long (45_block_codec.md R280). -/
theorem State.recover_bounds {s : State} {es : List Nat} {l : List (Nat × Symbol)} (h : s.recover es = some l) :
    ∀ q ∈ l, q.1 ∈ es ∧ q.2.length ≤ s.symLen := by
  induction es generalizing l with
  | nil => cases h; simp
  | cons e es ih =>
    rw [State.recover] at h
    split at h
    · cases h
    · rename_i v hv
      obtain ⟨l, hl, rfl⟩ := Option.map_eq_some_iff.1 h
      intro q hq
      rcases List.mem_cons.1 hq with rfl | hq
      · exact ⟨List.mem_cons_self, State.length_enc_le hv⟩
      · exact ⟨List.mem_cons_of_mem _ (ih hl q hq).1, (ih hl q hq).2⟩

/-! ### What the solver hands to SYM_C -/

/-- The right-hand sides are at most `t` bytes long and the columns of c are below `l` (R220). -/
structure SolverBounded (t l : Nat) (st : Solver) : Prop where
  rhs : ∀ v ∈ st.d, v.length ≤ t
  cols : ∀ c ∈ st.permC, c < l

theorem mem_of_mem_swapAt {α : Type} {l : List α} {i j : Nat} {x : α} (h : x ∈ swapAt l i j) : x ∈ l := by
  unfold swapAt at h
  split at h
  · rename_i y z hy hz
    rcases List.mem_or_eq_of_mem_set h with h | rfl
    · rcases List.mem_or_eq_of_mem_set h with h | rfl
      · exact h
      · exact List.mem_of_getElem? hz
    · exact List.mem_of_getElem? hy
  · exact h
  · exact h

namespace SolverBounded

variable {t l : Nat} {st : Solver}

theorem init {a : List Row} {d : List Symbol} (hd : ∀ v ∈ d, v.length ≤ t) : SolverBounded t l (Solver.init l a d) :=
  ⟨hd, fun _ hc => List.mem_range.1 hc⟩

theorem length_rhs_le (h : SolverBounded t l st) (k : Nat) : (st.rhs k).length ≤ t := by
  rw [Solver.rhs, List.getD_eq_getElem?_getD]
  cases hk : st.d[st.label k]? with
  | none => exact Nat.zero_le t
  | some v => exact h.rhs v (List.mem_of_getElem? hk)

theorem setRow (h : SolverBounded t l st) (k : Nat) (v : Row) : SolverBounded t l (st.setRow k v) := ⟨h.rhs, h.cols⟩

theorem setRhs (h : SolverBounded t l st) (k : Nat) {v : Symbol} (hv : v.length ≤ t) :
    SolverBounded t l (st.setRhs k v) := by
  refine ⟨fun w hw => ?_, h.cols⟩
  rcases List.mem_or_eq_of_mem_set hw with hw | rfl
  · exact h.rhs w hw
  · exact hv

theorem addScaled (h : SolverBounded t l st) (b : Build) (k src : Nat) (beta : Byte) :
    SolverBounded t l (st.addScaled b k src beta) :=
  (h.setRow k _).setRhs k ((length_axpyBytes_le b _ beta _).trans (h.length_rhs_le k))

/-- The bounds do not speak of the rows of A and their labels. -/
theorem withRows (h : SolverBounded t l st) (a : List Row) (rowD : List Nat) :
    SolverBounded t l { st with a := a, rowD := rowD } := ⟨h.rhs, h.cols⟩

theorem swapRows (h : SolverBounded t l st) (i k : Nat) : SolverBounded t l (st.swapRows i k) := ⟨h.rhs, h.cols⟩

theorem swapCols (h : SolverBounded t l st) (i j : Nat) : SolverBounded t l (st.swapCols i j) :=
  ⟨h.rhs, fun c hc => h.cols c (mem_of_mem_swapAt hc)⟩

theorem placeRest (h : SolverBounded t l st) (i fuel left right : Nat) :
    SolverBounded t l (placeRest i fuel st left right) := by
  induction fuel generalizing st left right with
  | zero => exact h
  | succ fuel ih =>
    rw [Machine.placeRest]
    split
    · exact h
    · split
      · exact ih h _ _
      · split
        · exact ih h _ _
        · exact ih (h.swapCols left right) _ _

theorem placeColumns (h : SolverBounded t l st) (i hi : Nat) : SolverBounded t l (placeColumns st i hi) := by
  refine placeRest ?_ i _ _ _
  split
  · exact h
  · split
    · exact h
    · exact h.swapCols i _

theorem eliminateBelow (h : SolverBounded t l st) (b : Build) (i : Nat) : SolverBounded t l (eliminateBelow b st i) := by
  refine List.foldlRecOn _ _ h fun st h k _ => ?_
  split
  · exact h
  · exact h.addScaled b k i _

theorem phase1 {b : Build} {m : SolveDims} {fuel i u i' : Nat} {st' : Solver} (h : SolverBounded t l st)
    (hp : phase1 b m fuel st i u = some (st', i')) : SolverBounded t l st' := by
  induction fuel generalizing st i u with
  | zero => cases hp; exact h
  | succ fuel ih =>
    rw [Machine.phase1] at hp
    split at hp
    · cases hp
      exact h
    · split at hp
      · cases hp
      · exact ih (((h.swapRows i _).placeColumns i _).eliminateBelow b i) hp

theorem normalizeRow (h : SolverBounded t l st) (b : Build) (k : Nat) : SolverBounded t l (st.normalizeRow b k) :=
  (h.setRow k _).setRhs k (by simpa [divBytes] using h.length_rhs_le k)

theorem clearColumn (h : SolverBounded t l st) (b : Build) (i k : Nat) : SolverBounded t l (clearColumn b i k st) := by
  refine List.foldlRecOn _ _ h fun st h j _ => ?_
  split
  · exact h
  · exact h.addScaled b j k _

theorem phase2 {b : Build} {i : Nat} {ts : List Nat} {st' : Solver} (h : SolverBounded t l st)
    (hp : phase2 b i ts st = some st') : SolverBounded t l st' := by
  induction ts generalizing st with
  | nil => cases hp; exact h
  | cons k ts ih =>
    rw [Machine.phase2] at hp
    split at hp
    · cases hp
    · exact ih (((h.withRows _ _).normalizeRow b k).clearColumn b i k) hp

theorem phase3 {m : SolveDims} (h : SolverBounded m.t l st) (b : Build) (i : Nat) :
    SolverBounded m.t l (phase3 b m i st) := by
  refine List.foldlRecOn _ _ h fun st h k _ => ?_
  refine (h.setRow k _).setRhs k ?_
  exact length_combine_le b m.t _ _

theorem foldEntry (h : SolverBounded t l st) (b : Build) (k j : Nat) : SolverBounded t l (foldEntry b k st j) := by
  rw [Machine.foldEntry]
  split
  · exact h
  · exact (h.setRhs k ((length_axpyBytes_le b _ _ _).trans (h.length_rhs_le k))).setRow k _

theorem phase4 (h : SolverBounded t l st) (b : Build) (m : SolveDims) (i : Nat) :
    SolverBounded t l (phase4 b m i st) :=
  List.foldlRecOn _ _ h fun _ h k _ => List.foldlRecOn _ _ h fun _ h j _ => h.foldEntry b k j

theorem backRow (h : SolverBounded t l st) (b : Build) (k : Nat) : SolverBounded t l (backRow b st k) := by
  have hsub : SolverBounded t l ((List.range k).foldl (Machine.foldEntry b k) st) :=
    List.foldlRecOn _ _ h fun _ h j _ => h.foldEntry b k j
  exact (hsub.setRhs k (by simpa [divBytes] using hsub.length_rhs_le k)).setRow k _

theorem phase5 (h : SolverBounded t l st) (b : Build) (i : Nat) : SolverBounded t l (phase5 b i st) :=
  List.foldlRecOn _ _ h fun _ h k _ => h.backRow b k

/-- The output's rows are rows of SYM_C in use; a place beyond c gives row 0, which is one as soon as there is a place. -/
theorem output {m : SolveDims} (h : SolverBounded t m.l st) : ∀ q ∈ solverOutput m st, q.1 < m.l ∧ q.2.length ≤ t := by
  intro q hq
  obtain ⟨k, hk, rfl⟩ := List.mem_map.1 hq
  refine ⟨?_, h.length_rhs_le k⟩
  show st.permC.getD k 0 < m.l
  rw [List.getD_eq_getElem?_getD]
  cases hc : st.permC[k]? with
  | none => exact Nat.zero_lt_of_lt (List.mem_range.1 hk)
  | some c => exact h.cols c (List.mem_of_getElem? hc)

end SolverBounded

/-- A successful solve answers symbols of at most T bytes for rows below L (R236). -/
theorem solve_bounds {b : Build} {m : SolveDims} {a : List Row} {d : List Symbol} {out : List (Nat × Symbol)}
    (hd : ∀ v ∈ d, v.length ≤ m.t) (h : solve b m a d = .ok out) : ∀ q ∈ out, q.1 < m.l ∧ q.2.length ≤ m.t := by
  unfold solve at h
  split at h
  · cases h
  · rename_i st1 i h1
    split at h
    · cases h
    · rename_i st2 h2
      cases h
      have hb2 : SolverBounded m.t m.l st2 := ((SolverBounded.init hd).phase1 h1).phase2 h2
      exact (((hb2.phase3 b i).phase4 b m i).phase5 b i).output

/-! ### The systems of the block commands -/

theorem mem_of_mem_setAll {α : Type} {places : List (Nat × α)} {l : List α} {x : α} (h : x ∈ setAll places l) :
    x ∈ l ∨ x ∈ places.map Prod.snd := by
  induction places generalizing l with
  | nil => exact .inl h
  | cons q places ih =>
    rcases ih h with h | h
    · exact (List.mem_or_eq_of_mem_set h).imp_right fun e => by simp [e]
    · exact .inr (List.mem_cons_of_mem _ h)

/-- Every right-hand side of the encoding system is at most T bytes long (45_block_codec.md R270). -/
theorem length_encodeRhs_le {c : BlockParams} {src : List Symbol} (hsrc : ∀ v ∈ src, v.length = c.t.toNat) :
    ∀ v ∈ encodeRhs c src, v.length ≤ c.t.toNat := by
  intro v hv
  simp only [encodeRhs, List.mem_append, List.mem_replicate] at hv
  rcases hv with (⟨_, rfl⟩ | hv) | ⟨_, rfl⟩
  · simp
  · exact (hsrc v hv).le
  · simp

/-- Every right-hand side of the augmented system is at most T bytes long (R280). -/
theorem length_decodeRhs_le {c : BlockParams} {missing : List Nat} {present : List (Nat × Symbol)} {rep : List Symbol}
    (hpresent : ∀ q ∈ present, q.2.length = c.t.toNat) (hrep : ∀ v ∈ rep, v.length = c.t.toNat) :
    ∀ v ∈ decodeRhs c missing present rep, v.length ≤ c.t.toNat := by
  intro v hv
  rcases List.mem_append.1 hv with hv | hv
  · rcases mem_of_mem_setAll hv with hv | hv
    · rcases mem_of_mem_setAll hv with hv | hv
      · simp [(List.mem_replicate.1 hv).2]
      · simp only [List.map_map, List.mem_map, Function.comp] at hv
        obtain ⟨q, hq, rfl⟩ := hv
        exact (hpresent q hq).le
    · simp only [List.map_map, List.mem_map, Function.comp] at hv
      obtain ⟨q, hq, rfl⟩ := hv
      exact (hrep q.2 (List.of_mem_zip hq).2).le
  · exact (hrep v (List.mem_of_mem_drop hv)).le

/-- The received source symbols belong to ESIs below K (R280). -/
theorem fst_lt_of_mem_presentRows {k : Nat} {esis : List Nat} {q : Nat × Nat} (h : q ∈ presentRows k esis) : q.1 < k := by
  obtain ⟨e, he, hq⟩ := List.mem_filterMap.1 h
  obtain ⟨p, _, rfl⟩ := Option.map_eq_some_iff.1 hq
  exact List.mem_range.1 he

theorem lt_of_mem_missingOf {k : Nat} {esis : List Nat} {e : Nat} (h : e ∈ missingOf k esis) : e < k :=
  List.mem_range.1 (List.mem_of_mem_filter h)

end Sys2Proof.Machine
end

section
/-! PROOFS. Every way in which a command can end, said once for all 26 commands; what a command keeps and which registers
and flags it may write follow by cases (spec/10_state.md R28, R29, R34, R35, R45; 30_encoding.md R86). -/

namespace Sys2Proof.Machine
open Sys2Proof.Claims

/-! ### Banks that a command leaves canonical and inside the map -/

/-- The banks `m` are in canonical form if those of `s` are, and lie in the populated map if `s` is sound. -/
structure BanksKept (s : State) (m : Memory) : Prop where
  canonical : s.mem.wf → m.wf
  banks : MachineOk s → BanksOk s.build false m

theorem State.writeSymRows_eq_setMem (s : State) (r : Region) (l : List (Nat × Symbol)) :
    s.writeSymRows r l = s.setMem (s.writeSymRows r l).mem := by
  induction l generalizing s with
  | nil => rfl
  | cons q l ih => exact ih (s.writeSymRow r q.1 q.2)

theorem State.writeMatrix_eq_setMem (s : State) (row : Nat) (l : List Row) :
    s.writeMatrix row l = s.setMem (s.writeMatrix row l).mem := by
  induction l generalizing s row with
  | nil => rfl
  | cons v l ih => exact ih (s.setMem (s.mem.writeBytes (matRow s.build .matA row) v)) (row + 1)

namespace BanksKept

variable {s u : State}

theorem refl (s : State) : BanksKept s s.mem := ⟨id, MachineOk.banks⟩

theorem clear {m : Memory} (h : BanksKept s m) (p : Nat → Bool) : BanksKept s (m.clear p) :=
  ⟨fun hm => Memory.clear_wf (h.canonical hm) p, fun hs => (h.banks hs).clear p⟩

theorem writeSymRows (h : BanksKept s u.mem) (hbuild : u.build = s.build) {r : Region} (hr : r.coreOnly = false)
    {l : List (Nat × Symbol)} (hl : MachineOk s → RowsFit s.build r l) : BanksKept s (u.writeSymRows r l).mem :=
  ⟨fun hm => State.writeSymRows_wf (h.canonical hm) r l, fun hs => by
    rw [← hbuild]
    exact State.writeSymRows_banksOk hr (hbuild ▸ hl hs) (hbuild ▸ h.banks hs)⟩

/-- A symbol of at most T bytes stored in a row of a symbol bank. -/
theorem writeSymRow (hv : s.status.cfgValid = true) {r : Region} (hr : r.coreOnly = false) {row : Nat} {v : Symbol}
    (hrow : row < bankRows s.build r) (hlen : v.length ≤ s.symLen) :
    BanksKept s (s.writeSymRow r row v).mem :=
  (refl s).writeSymRows rfl hr (l := [(row, v)]) fun hs q hq => by
    obtain rfl := List.mem_singleton.1 hq
    exact ⟨hrow, hlen.trans (hs.blockFits hv).t⟩

/-- Rows of L columns stored in MAT_A. -/
theorem writeMatrix (hv : s.status.cfgValid = true) {row : Nat} {l : List Row}
    (hrows : MachineOk s → row + l.length ≤ s.build.mMax) (hl : ∀ v ∈ l, v.length = s.cfg.l.toNat) :
    BanksKept s (s.writeMatrix row l).mem :=
  ⟨fun hm => State.writeMatrix_wf hm row l, fun hs =>
    State.writeMatrix_banksOk (hrows hs) (fun v hvl => (hl v hvl).trans_le (hs.blockFits hv).l) hs.banks⟩

end BanksKept

/-! ### The ends of a command -/

/-- The commands that solve a system (44_pi_solver.md R240, 45_block_codec.md R274, R280). -/
abbrev Solves (i : Instr) : Prop := i = .piSolve ∨ i = .blkEncode ∨ i = .blkDecode

/-- The commands that neither configure a block nor solve a system. -/
abbrev Plain (i : Instr) : Prop := i ≠ .blkConfig ∧ ¬Solves i

/-- Every way in which a command can end in a next state. -/
inductive CommandEnd (s : State) : Instr → State → Prop where
  /-- A check failed before anything was written (60_exceptions.md R301). -/
  | refused {i : Instr} (hi : i ≠ .blkConfig) {c : FailCode} (hc : c.code.toNat < 0x20) :
    CommandEnd s i (s.raiseFail c)
  /-- The command's results stand in its RES registers. -/
  | results {i : Instr} (hi : Plain i) {r : Vector Word 8}
    (hr : ∀ n : Fin 8, n.val ∉ resWritten i → r[n] = s.res[n]) : CommandEnd s i (State.complete { s with res := r })
  /-- The command's result stands in the banks. -/
  | stored {i : Instr} (hi : Plain i) {m : Memory} (hm : BanksKept s m) :
    CommandEnd s i (s.setMem m).complete
  /-- BUILD_A also sets M_ROWS (42_tuple_matrix.md R190). -/
  | built {m : Memory} (hm : BanksKept s m) (n : Nat) : CommandEnd s .buildA ((s.setMem m).setMRows n).complete
  /-- BLK_CONFIG refused (K, T) (41_tables.md R152). -/
  | configRefused : CommandEnd s .blkConfig (((s.setCfgValid false).setCValid false).raiseFail .invalidParameters)
  /-- BLK_CONFIG accepted (K, T) (R152). -/
  | configured {r : SitRow} (hr : configRow s.build (s.arg 0) (s.arg 1) = some r) :
    CommandEnd s .blkConfig (State.complete (State.setCfgValid
      { (s.setCfgValid false).setCValid false with cfg := blockParamsOf (s.arg 0) (s.arg 1) r } true))
  /-- A solve failed in phase 1 or 2 (44_pi_solver.md R245). -/
  | solveFailed {i : Instr} (hi : Solves i) (n : Nat) (c : FailCode) :
    CommandEnd s i (((s.beginSolve n).clearScratch n).raiseFail c)
  /-- PI_SOLVE and BLK_ENCODE store their solution (44_pi_solver.md R240, 45_block_codec.md R274). -/
  | solved {i : Instr} (hi : i = .piSolve ∨ i = .blkEncode) (hv : s.status.cfgValid = true) {n : Nat}
    {out : List (Nat × Symbol)} (hm : BanksKept s ((s.beginSolve n).endSolve n out).mem) :
    CommandEnd s i ((s.beginSolve n).endSolve n out).complete
  /-- BLK_DECODE received too few symbols (45_block_codec.md R280). -/
  | insufficient : CommandEnd s .blkDecode ((s.setCValid false).raiseFail .decodingFailureInsufficient)
  /-- BLK_DECODE received every source symbol (R280). -/
  | received {m : Memory} (hm : BanksKept s m) (a b : Word) :
    CommandEnd s .blkDecode (((((s.setCValid false).setMem m).setRes 0 a).setRes 1 b).complete)
  /-- BLK_DECODE solved the augmented system (R280). -/
  | decoded (hv : s.status.cfgValid = true) {n : Nat} {out : List (Nat × Symbol)} {m : Memory} (hm : BanksKept s m)
    (a b : Word) :
    CommandEnd s .blkDecode (((((s.beginSolve n).endSolve n out).setMem m).setRes 0 a).setRes 1 b).complete

section
variable {s t : State} {i : Instr}

/-- A command that needs a configured block is refused or goes on with one. -/
theorem CommandEnd.of_needConfig (hi : i ≠ .blkConfig) {k : Out} (h : needConfig s k = .next t)
    (hk : s.status.cfgValid = true → k = .next t → CommandEnd s i t) : CommandEnd s i t := by
  rcases needConfig_next h with ⟨hv, h⟩ | ⟨_, rfl⟩
  · exact hk hv h
  · exact .refused hi (by decide)

/-- A scalar command with one result. -/
theorem CommandEnd.res0 (hi : Plain i) (hw : resWritten i = [0]) (v : Word) :
    CommandEnd s i (s.setRes 0 v).complete := by
  refine .results hi fun n hn => ?_
  rw [hw, List.mem_singleton] at hn
  exact Vector.getElem_set_ne _ _ (Ne.symm hn)

/-- A table command with four results. -/
theorem CommandEnd.res4 (hi : Plain i) (hw : resWritten i = [0, 1, 2, 3]) (a b c d : Nat) :
    CommandEnd s i (s.setRes4 a b c d).complete := by
  refine .results hi fun n hn => ?_
  simp only [hw, List.mem_cons, List.not_mem_nil, or_false, not_or] at hn
  obtain ⟨h0, h1, h2, h3⟩ := hn
  simp [Ne.symm h0, Ne.symm h1, Ne.symm h2, Ne.symm h3]

/-- A symbol of at most T bytes stored in a row of a symbol bank. -/
theorem CommandEnd.storedSymbol (hi : Plain i) (hv : s.status.cfgValid = true) {r : Region}
    (hr : r.coreOnly = false) {row : Nat} {v : Symbol} (hrow : row < bankRows s.build r) (hlen : v.length ≤ s.symLen) :
    CommandEnd s i (s.writeSymRow r row v).complete :=
  .stored hi (BanksKept.writeSymRow hv hr hrow hlen)

end

/-! ### Each command ends in one of these ways -/

section
variable {s t : State}

/-- The shape of the scalar and table commands with one result: refused, or RES0 written. -/
theorem res0_end {i : Instr} (hi : Plain i) (hw : resWritten i = [0]) {p : Prop} [Decidable p] {c : FailCode}
    (hc : c.code.toNat < 0x20) {v : Word} (h : (if p then failWith s c else finish (s.setRes 0 v)) = .next t) :
    CommandEnd s i t := by
  split at h
  · obtain rfl := failWith_next h
    exact .refused hi.1 hc
  · obtain rfl := finish_next h
    exact .res0 hi hw v

theorem execSitCeil_end (h : execSitCeil s = .next t) : CommandEnd s .sitCeil t := by
  unfold execSitCeil at h
  split at h
  · obtain rfl := failWith_next h
    exact .refused (by simp) (by decide)
  · split at h
    · obtain rfl := failWith_next h
      exact .refused (by simp) (by decide)
    · obtain rfl := finish_next h
      exact .res0 (by simp [Plain]) rfl _

theorem execSitLookup_end (h : execSitLookup s = .next t) : CommandEnd s .sitLookup t := by
  unfold execSitLookup at h
  split at h
  · obtain rfl := failWith_next h
    exact .refused (by simp) (by decide)
  · obtain rfl := finish_next h
    exact .res4 (by simp [Plain]) rfl _ _ _ _

theorem execPartition_end (h : execPartition s = .next t) : CommandEnd s .partition t := by
  unfold execPartition at h
  split at h
  · obtain rfl := failWith_next h
    exact .refused (by simp) (by decide)
  · obtain rfl := finish_next h
    exact .res4 (by simp [Plain]) rfl _ _ _ _

theorem execBlkConfig_end (h : execBlkConfig s = .next t) : CommandEnd s .blkConfig t := by
  unfold execBlkConfig at h
  dsimp only at h
  split at h
  · obtain rfl := failWith_next h
    exact .configRefused
  · obtain rfl := finish_next h
    exact .configured (by assumption)

/-- The codes of the operand checks (40_gf256.md R120). -/
theorem dstOperand_error {db : BankCode} {c : FailCode} (h : dstOperand db s = .error c) : c.code.toNat < 0x20 := by
  unfold dstOperand at h
  split at h
  · cases h; decide
  · split at h
    · cases h; decide
    · split at h <;> cases h
      decide

theorem dstSrcOperands_error {db sb : BankCode} {c : FailCode} (h : dstSrcOperands db sb s = .error c) :
    c.code.toNat < 0x20 := by
  unfold dstSrcOperands at h
  split at h
  · split at h
    · cases h; decide
    · split at h
      · cases h; decide
      · split at h <;> cases h
        decide
  · cases h; decide
  · cases h; decide

/-- The end of a vector command whose operands passed the checks. -/
theorem vector_end {i : Instr} (hi : Plain i) {db : BankCode} {r : Region} (hr : bankOf db = some r)
    (hv : s.status.cfgValid = true) (hrow : s.arg 0 < bankRows s.build r) {v : Symbol} (hlen : v.length ≤ s.symLen)
    (h : finish (s.writeSymbol (symRow s.build r (s.arg 0)) v) = .next t) : CommandEnd s i t := by
  obtain rfl := finish_next h
  exact .storedSymbol hi hv (bankOf_coreOnly hr) hrow hlen

theorem execVxor_end {db sb : BankCode} (h : execVxor db sb s = .next t) : CommandEnd s (.vxor db sb) t := by
  unfold execVxor at h
  split at h
  · rename_i hc
    obtain rfl := failWith_next h
    exact .refused (by simp) (dstSrcOperands_error hc)
  · rename_i hop
    obtain ⟨rd, rs, hd, _, hv, hrow, _, rfl, rfl⟩ := dstSrcOperands_ok hop
    obtain ⟨x, hx, h⟩ := orNoValue_next h
    obtain ⟨y, _, h⟩ := orNoValue_next h
    exact vector_end (by simp [Plain]) hd hv hrow ((length_xorBytes_le x y).trans_eq (State.length_readSymbol hx)) h

theorem execVaxpy_end {db sb : BankCode} {beta : Byte} (h : execVaxpy db sb beta s = .next t) :
    CommandEnd s (.vaxpy db sb beta) t := by
  unfold execVaxpy at h
  split at h
  · rename_i hc
    obtain rfl := failWith_next h
    exact .refused (by simp) (dstSrcOperands_error hc)
  · rename_i hop
    obtain ⟨rd, rs, hd, _, hv, hrow, _, rfl, rfl⟩ := dstSrcOperands_ok hop
    obtain ⟨x, hx, h⟩ := orNoValue_next h
    obtain ⟨y, _, h⟩ := orNoValue_next h
    exact vector_end (by simp [Plain]) hd hv hrow
      ((length_axpyBytes_le s.build x beta y).trans_eq (State.length_readSymbol hx)) h

theorem execVcopy_end {db sb : BankCode} (h : execVcopy db sb s = .next t) : CommandEnd s (.vcopy db sb) t := by
  unfold execVcopy at h
  split at h
  · rename_i hc
    obtain rfl := failWith_next h
    exact .refused (by simp) (dstSrcOperands_error hc)
  · rename_i hop
    obtain ⟨rd, rs, hd, _, hv, hrow, _, rfl, rfl⟩ := dstSrcOperands_ok hop
    obtain ⟨y, hy, h⟩ := orNoValue_next h
    exact vector_end (by simp [Plain]) hd hv hrow (State.length_readSymbol hy).le h

theorem execVscale_end {db : BankCode} {beta : Byte} (h : execVscale db beta s = .next t) :
    CommandEnd s (.vscale db beta) t := by
  unfold execVscale at h
  split at h
  · rename_i hc
    obtain rfl := failWith_next h
    exact .refused (by simp) (dstOperand_error hc)
  · rename_i hop
    obtain ⟨rd, hd, hv, hrow, rfl⟩ := dstOperand_ok hop
    obtain ⟨x, hx, h⟩ := orNoValue_next h
    exact vector_end (by simp [Plain]) hd hv hrow (by simpa [scaleBytes] using (State.length_readSymbol hx).le) h

theorem execVzero_end {db : BankCode} (h : execVzero db s = .next t) : CommandEnd s (.vzero db) t := by
  unfold execVzero at h
  split at h
  · rename_i hc
    obtain rfl := failWith_next h
    exact .refused (by simp) (dstOperand_error hc)
  · rename_i hop
    obtain ⟨rd, hd, hv, hrow, rfl⟩ := dstOperand_ok hop
    exact vector_end (by simp [Plain]) hd hv hrow (length_zeroBytes _).le h

theorem execTuple_end (h : execTuple s = .next t) : CommandEnd s .tuple t := by
  refine .of_needConfig (by simp) h fun _ h => ?_
  obtain rfl := finish_next h
  refine .results (by simp [Plain]) fun n hn => ?_
  simp only [resWritten, List.mem_cons, List.not_mem_nil, or_false, not_or] at hn
  obtain ⟨h0, h1, h2, h3, h4, h5⟩ := hn
  simp [Ne.symm h0, Ne.symm h1, Ne.symm h2, Ne.symm h3, Ne.symm h4, Ne.symm h5]

theorem execBuildA_end (h : execBuildA s = .next t) : CommandEnd s .buildA t := by
  refine .of_needConfig (by simp) h fun hv h => ?_
  obtain rfl := finish_next h
  rw [State.writeMatrix_eq_setMem]
  refine .built (BanksKept.writeMatrix hv (fun hs => ?_) fun _ => length_of_mem_constraintMatrix) _
  have hfits := hs.blockFits hv
  rw [length_constraintMatrix, hfits.rows, Nat.zero_add]
  exact hfits.l.trans (Nat.le_add_right _ _)

theorem execRowPattern_end (h : execRowPattern s = .next t) : CommandEnd s .rowPattern t := by
  refine .of_needConfig (by simp) h fun hv h => ?_
  split at h
  · obtain rfl := failWith_next h
    exact .refused (by simp) (by decide)
  · rename_i hrow
    obtain rfl := finish_next h
    rw [State.writeMatrix_eq_setMem]
    refine .stored (by simp [Plain]) (BanksKept.writeMatrix hv (fun _ => Nat.lt_of_not_le hrow) fun v hvl => ?_)
    rw [List.mem_singleton.1 hvl, length_patternOf]

/-- SYM_OUT holds one row (20_memory.md R60, 40_gf256.md R120). -/
theorem symOut_end {i : Instr} (hi : Plain i) (hv : s.status.cfgValid = true) {v : Symbol} (hlen : v.length ≤ s.symLen)
    (h : finish (s.writeSymRow .symOut 0 v) = .next t) : CommandEnd s i t := by
  obtain rfl := finish_next h
  exact .storedSymbol hi hv rfl Nat.one_pos hlen

theorem execLtEnc_end (h : execLtEnc s = .next t) : CommandEnd s .ltEnc t := by
  refine .of_needConfig (by simp) h fun hv h => ?_
  split at h
  · obtain ⟨v, hx, h⟩ := orNoValue_next h
    exact symOut_end (by simp [Plain]) hv (State.length_enc_le hx) h
  · obtain rfl := failWith_next h
    exact .refused (by simp) (by decide)

theorem execBlkSymbol_end (h : execBlkSymbol s = .next t) : CommandEnd s .blkSymbol t := by
  refine .of_needConfig (by simp) h fun hv h => ?_
  split at h
  · obtain rfl := failWith_next h
    exact .refused (by simp) (by decide)
  · split at h
    · obtain ⟨v, hx, h⟩ := orNoValue_next h
      exact symOut_end (by simp [Plain]) hv (State.length_readSymbol hx).le h
    · split at h
      · obtain ⟨v, hx, h⟩ := orNoValue_next h
        exact symOut_end (by simp [Plain]) hv (State.length_enc_le hx) h
      · obtain rfl := failWith_next h
        exact .refused (by simp) (by decide)

/-- A solve leaves T as it was. -/
theorem State.symLen_endSolve (s : State) (n : Nat) (out : List (Nat × Symbol)) :
    ((s.beginSolve n).endSolve n out).symLen = s.symLen := by
  simp [State.symLen]

/-- The rows of SYM_C that a solve answers fit it (44_pi_solver.md R236). -/
theorem rowsFit_solve (hv : s.status.cfgValid = true) {a : List Row} {d : List Symbol} {out : List (Nat × Symbol)}
    (hd : ∀ v ∈ d, v.length ≤ s.symLen) (h : solve s.build s.solveDims a d = .ok out) (hs : MachineOk s) :
    RowsFit s.build .symC out := by
  intro q hq
  obtain ⟨hrow, hlen⟩ := solve_bounds (m := s.solveDims) hd h q hq
  exact ⟨hrow.trans_le (hs.blockFits hv).l, hlen.trans (hs.blockFits hv).t⟩

/-- The end of a solve in terms of the state that began it: failed, or gone on with a solution that fits SYM_C. -/
theorem solveThen_end {i : Instr} (hi : Solves i) (hv : s.status.cfgValid = true) {n : Nat} {a : List Row}
    {d : List Symbol} {k : State → Out} (hd : ∀ v ∈ d, v.length ≤ s.symLen)
    (h : solveThen (s.beginSolve n) n a d k = .next t)
    (hk : ∀ out, BanksKept s ((s.beginSolve n).endSolve n out).mem → k ((s.beginSolve n).endSolve n out) = .next t →
      CommandEnd s i t) : CommandEnd s i t := by
  rcases solveThen_next h with ⟨c, _, rfl⟩ | ⟨out, hout, h⟩
  · exact .solveFailed hi n c
  · refine hk out ?_ h
    rw [State.endSolve_mem]
    exact BanksKept.writeSymRows (u := (s.beginSolve n).clearScratch n) ((BanksKept.refl s).clear _) rfl rfl
      (rowsFit_solve hv hd hout)

theorem execPiSolve_end (h : execPiSolve s = .next t) : CommandEnd s .piSolve t := by
  refine .of_needConfig (by simp) h fun hv h => ?_
  split at h
  · obtain rfl := failWith_next h
    exact .refused (by simp) (by decide)
  · obtain ⟨a, _, h⟩ := orNoValue_next h
    obtain ⟨d, hd, h⟩ := orNoValue_next h
    refine solveThen_end (by simp [Solves]) hv (fun v hvd => ((State.readSymRows_some hd).2 v hvd).le) h fun out hm h => ?_
    obtain rfl := finish_next h
    exact .solved (by simp) hv hm

theorem execBlkEncode_end (h : execBlkEncode s = .next t) : CommandEnd s .blkEncode t := by
  refine .of_needConfig (by simp) h fun hv h => ?_
  obtain ⟨src, hsrc, h⟩ := orNoValue_next h
  refine solveThen_end (by simp [Solves]) hv (length_encodeRhs_le (State.readSymRows_some hsrc).2) h fun out hm h => ?_
  obtain rfl := finish_next h
  exact .solved (by simp) hv hm

/-- The received source symbols fit SYM_SRC (45_block_codec.md R280). -/
theorem rowsFit_present (hv : s.status.cfgValid = true) {slots : List (Nat × Nat)} {rx : List Symbol}
    (hslots : ∀ q ∈ slots, q.1 < s.cfg.k.toNat) (hrx : ∀ v ∈ rx, v.length = s.symLen) (hs : MachineOk s) :
    RowsFit s.build .symSrc ((slots.map (·.1)).zip rx) := by
  intro q hq
  obtain ⟨h1, h2⟩ := List.of_mem_zip hq
  obtain ⟨p, hp, he⟩ := List.mem_map.1 h1
  exact ⟨he ▸ (hslots p hp).trans_le (hs.blockFits hv).k, (hrx q.2 h2).trans_le (hs.blockFits hv).t⟩

theorem decodeFull_end (hv : s.status.cfgValid = true) {esis missing repairs : List Nat} {present : List (Nat × Symbol)}
    {rep : List Symbol} (hmissing : ∀ e ∈ missing, e < s.cfg.k.toNat)
    (hpresent : ∀ q ∈ present, q.2.length = s.symLen) (hfits : MachineOk s → RowsFit s.build .symSrc present)
    (hrep : ∀ v ∈ rep, v.length = s.symLen)
    (h : decodeFull (s.setCValid false) esis missing repairs present rep = .next t) : CommandEnd s .blkDecode t := by
  unfold decodeFull at h
  dsimp only at h
  refine solveThen_end (by simp [Solves]) hv (length_decodeRhs_le hpresent hrep) h fun out hm h => ?_
  obtain ⟨found, hfound, h⟩ := orNoValue_next h
  obtain rfl := finish_next h
  rw [State.writeSymRows_eq_setMem _ _ present, State.writeSymRows_eq_setMem _ _ found]
  refine .decoded hv (BanksKept.writeSymRows (u := State.setMem _ _) ?_ ?_ rfl hfits) _ _
  · refine BanksKept.writeSymRows hm ?_ rfl fun hs q hq => ?_
    · simp
    · obtain ⟨hmem, hlen⟩ := State.recover_bounds hfound q hq
      have hT := hlen.trans_eq (State.symLen_endSolve s _ out)
      exact ⟨(hmissing q.1 hmem).trans_le (hs.blockFits hv).k, hT.trans (hs.blockFits hv).t⟩
  · simp

theorem execBlkDecode_end (h : execBlkDecode s = .next t) : CommandEnd s .blkDecode t := by
  refine .of_needConfig (by simp) h fun hv h => ?_
  split at h
  · obtain rfl := failWith_next h
    exact .refused (by simp) (by decide)
  · obtain ⟨esis, _, h⟩ := orNoValue_next h
    have hslots : ∀ q ∈ presentRows s.cfg.k.toNat esis, q.1 < s.cfg.k.toNat := fun _ => fst_lt_of_mem_presentRows
    split at h
    · obtain rfl := failWith_next h
      exact .refused (by simp) (by decide)
    · dsimp only at h
      split at h
      · obtain ⟨rx, hrx, h⟩ := orNoValue_next h
        obtain rfl := finish_next h
        rw [State.writeSymRows_eq_setMem]
        exact .received ((BanksKept.refl s).writeSymRows (u := s.setCValid false) rfl rfl
          (rowsFit_present hv hslots (State.readSymRows_some hrx).2)) _ _
      · split at h
        · obtain rfl := failWith_next h
          exact .insufficient
        · obtain ⟨rx, hrx, h⟩ := orNoValue_next h
          obtain ⟨rep, hrep, h⟩ := orNoValue_next h
          have hlen := (State.readSymRows_some hrx).2
          exact decodeFull_end hv (fun _ => lt_of_mem_missingOf) (fun q hq => hlen q.2 (List.of_mem_zip hq).2)
            (rowsFit_present hv hslots hlen) (State.readSymRows_some hrep).2 h

/-- Every command ends in one of the ways of `CommandEnd`. -/
theorem exec_end {i : Instr} (h : exec i s = .next t) : CommandEnd s i t := by
  cases i with
  | nop =>
    obtain rfl := finish_next h
    exact .results (r := s.res) (by simp [Plain]) fun _ _ => rfl
  | gfAdd u v | gfSub u v | gfMul u v =>
    obtain rfl := finish_next h
    exact .res0 (by simp [Plain]) rfl _
  | gfDiv u v | gfExp idx | gfLog x | rand | deg => exact res0_end (by simp [Plain]) rfl (by decide) h
  | vxor db sb => exact execVxor_end h
  | vscale db beta => exact execVscale_end h
  | vaxpy db sb beta => exact execVaxpy_end h
  | vcopy db sb => exact execVcopy_end h
  | vzero db => exact execVzero_end h
  | sitCeil => exact execSitCeil_end h
  | sitLookup => exact execSitLookup_end h
  | partition => exact execPartition_end h
  | blkConfig => exact execBlkConfig_end h
  | tuple => exact execTuple_end h
  | buildA => exact execBuildA_end h
  | rowPattern => exact execRowPattern_end h
  | ltEnc => exact execLtEnc_end h
  | piSolve => exact execPiSolve_end h
  | blkEncode => exact execBlkEncode_end h
  | blkSymbol => exact execBlkSymbol_end h
  | blkDecode => exact execBlkDecode_end h

end

/-! ### The frame of a command -/

/-- Settles O15: each end changes only what its command may change. -/
theorem commandFrame : Obligations.CommandFrame := by
  unfold Obligations.CommandFrame
  intro i s t h
  cases exec_end h with
  | refused _ _ => simp
  | results hi hr =>
    have success (he : s.status.err = false) : s.status.err ≠ true := by simp [he]
    simpa [hi.1] using ⟨hr, fun he he' => absurd he' (success he)⟩
  | stored _ _ | built _ _ | configRefused | configured _ | insufficient => simp
  | solveFailed hi _ _ => rcases hi with rfl | rfl | rfl <;> simp
  | solved hi _ _ => rcases hi with rfl | rfl <;> simp +contextual
  | received _ _ _ | decoded _ _ _ _ =>
    have untouched (n : Fin 8) (hn : n.val ∉ resWritten .blkDecode) : 0 ≠ n.val ∧ 1 ≠ n.val := by
      simpa [resWritten, eq_comm] using hn
    simpa +contextual using fun n hn => by simp [untouched n hn]

/-- Settles O16: each end sets CFG_VALID and C_VALID as its command's rule says. -/
theorem validFlags : Obligations.ValidFlags := by
  unfold Obligations.ValidFlags
  intro i s t he h
  cases exec_end h with
  | refused hi hc => simp [hi]; omega
  | results hi _ | stored hi _ =>
    obtain ⟨hconfig, hsolve⟩ := hi
    simp only [Solves, not_or] at hsolve
    simp [hconfig, hsolve, he]
  | solveFailed hi _ _ => rcases hi with rfl | rfl | rfl <;> simp
  | solved hi _ _ => rcases hi with rfl | rfl <;> simp [he]
  | built _ _ | configRefused | configured _ | insufficient | received _ _ _ | decoded _ _ _ _ => simp [he]

end Sys2Proof.Machine
end

section
/-! PROOFS. The invariants of every step: banks in canonical form, a sound machine, and who writes the registers
(spec/10_state.md R23, R26, R28, R29; 20_memory.md R60; 70_reset_and_hazards.md R332). -/

namespace Sys2Proof.Machine
open Sys2Proof.Claims

/-! ### Canonical banks -/

section
variable {s t : State}

theorem State.hostRead_mem (s : State) (a n : Nat) : (s.hostRead a n).mem = s.mem := by
  rcases s.hostRead_cases a n with ⟨v, h⟩ | ⟨_, v, k, h⟩ <;> rw [h]

theorem State.hostRead_hostCopy (s : State) (a n : Nat) : (s.hostRead a n).hostCopy = s.hostCopy := by
  rcases s.hostRead_cases a n with ⟨v, h⟩ | ⟨_, v, k, h⟩ <;> rw [h]

/-- A host write keeps the banks, and what the host stored beside them, in canonical form. -/
theorem State.hostWrite_wf (s : State) (a n : Nat) (v : BitVec 64) :
    (s.mem.wf → (s.hostWrite a n v).mem.wf) ∧ (s.hostCopy.wf → (s.hostWrite a n v).hostCopy.wf) := by
  rcases s.hostWrite_cases a n v with ⟨r, h⟩ | h | h | ⟨_, _, h⟩ | ⟨k, _, h⟩ | ⟨r, _, _, h⟩ <;> rw [h]
  · exact ⟨id, id⟩
  · exact ⟨id, id⟩
  · exact ⟨id, id⟩
  · exact ⟨id, id⟩
  · exact ⟨id, id⟩
  · split
    · exact ⟨id, fun hw => Memory.writeBytes_wf hw _ _⟩
    · exact ⟨fun hw => Memory.writeBytes_wf hw _ _, id⟩

/-- What a command does to the banks, in one statement for all its ends. -/
theorem CommandEnd.banksKept {i : Instr} (h : CommandEnd s i t) : BanksKept s t.mem := by
  cases h with
  | refused _ _ | results _ _ | configRefused | configured _ | insufficient => exact .refl s
  | stored _ hm | built hm _ | received hm _ _ | decoded _ hm _ _ | solved _ _ hm => exact hm
  | solveFailed _ n _ => exact (BanksKept.refl s).clear _

/-- What a command does to the host's bytes beside the banks: a solve forgets its scratch (44_pi_solver.md R246). -/
theorem CommandEnd.hostCopy_eq {i : Instr} (h : CommandEnd s i t) : ∃ p, t.hostCopy = s.hostCopy.clear p := by
  have kept : s.hostCopy = s.hostCopy.clear fun _ => false := by simp [Memory.clear]
  cases h with
  | refused _ _ | results _ _ | stored _ _ | built _ _ | configRefused | configured _ | insufficient | received _ _ _ =>
    exact ⟨_, kept⟩
  | solveFailed _ n _ => exact ⟨_, rfl⟩
  | solved _ _ _ | decoded _ _ _ _ => exact ⟨_, State.endSolve_hostCopy _ _ _⟩

end

/-- Settles O18: one host event, or the end of one command. -/
theorem stepKeepsMemoryCanonical : Obligations.StepKeepsMemoryCanonical := by
  unfold Obligations.StepKeepsMemoryCanonical
  intro s t h
  rcases step_cases h with ⟨a, n, rest, _, rfl⟩ | ⟨a, n, v, rest, _, rfl⟩ | ⟨rest, _, rfl⟩ | ⟨rest, _, _, rfl⟩ |
    ⟨rest, e, _, _, _, rfl⟩ | ⟨rest, i, _, _, _, h⟩
  · rw [State.hostRead_mem, State.hostRead_hostCopy]
    exact ⟨id, id⟩
  · exact State.hostWrite_wf { s with host := rest } _ _ _
  · exact ⟨fun _ => List.Pairwise.nil, fun _ => List.Pairwise.nil⟩
  · exact ⟨id, id⟩
  · exact ⟨id, id⟩
  · obtain ⟨p, hp⟩ := (exec_end h).hostCopy_eq
    exact ⟨(exec_end h).banksKept.canonical, fun hw => hp ▸ Memory.clear_wf hw p⟩

/-! ### A legal STATUS -/

namespace StatusOk

variable {f : Status}

theorem complete (h : StatusOk f) : StatusOk f.complete := ⟨h.1, h.2.1, nofun, h.2.2.2⟩

theorem fail (h : StatusOk f) (c : FailCode) : StatusOk (f.fail c) := by
  have listed : c ∈ allFailCodes := by cases c <;> decide
  exact ⟨nofun, fun _ => List.mem_map_of_mem listed, nofun, h.2.2.2⟩

theorem refuse (h : StatusOk f) : StatusOk f.refuse := h

/-- An issue needs ERR = 0 (10_state.md R22). -/
theorem issue (h : StatusOk f) (he : f.err = false) : StatusOk f.issue := ⟨h.1, h.2.1, fun _ => ⟨rfl, he⟩, h.2.2.2⟩

theorem setCValid_false (h : StatusOk f) : StatusOk (f.setCValid false) := ⟨h.1, h.2.1, h.2.2.1, nofun⟩

theorem setCValid_true (h : StatusOk f) (hv : f.cfgValid = true) : StatusOk (f.setCValid true) :=
  ⟨h.1, h.2.1, h.2.2.1, fun _ => hv⟩

theorem setCfgValid_true (h : StatusOk f) : StatusOk (f.setCfgValid true) := ⟨h.1, h.2.1, h.2.2.1, fun _ => rfl⟩

/-- BLK_CONFIG clears both flags first (41_tables.md R152). -/
theorem clearValid (h : StatusOk f) : StatusOk ((f.setCfgValid false).setCValid false) := ⟨h.1, h.2.1, h.2.2.1, nofun⟩

/-- A cleared ERR takes ERRCODE with it (10_state.md R23). -/
theorem writeOneToClear (h : StatusOk f) (v : Word) : StatusOk (f.writeOneToClear v) := by
  obtain ⟨hnone, hcode, hbusy, hvalid⟩ := h
  refine ⟨?_, ?_, fun hb => ?_, hvalid⟩
  · rw [Status.writeOneToClear_err, Status.writeOneToClear_errCode]
    cases v.getLsbD 2 with
    | false => simpa using hnone
    | true => exact fun _ => rfl
  · rw [Status.writeOneToClear_err, Status.writeOneToClear_errCode]
    cases v.getLsbD 2 with
    | false => simpa using hcode
    | true => simp
  · obtain ⟨hdone, herr⟩ := hbusy hb
    simp [hdone, herr]

end StatusOk

/-! ### A sound machine -/

section
variable {s t : State}

/-- A change that leaves the build, the configuration and CFG_VALID as they are keeps the machine sound when STATUS stays
legal and the banks stay in place. -/
theorem MachineOk.of_sameConfig (hs : MachineOk s) (hbuild : t.build = s.build) (hcfg : t.cfg = s.cfg)
    (hvalid : t.status.cfgValid = s.status.cfgValid) (hstatus : StatusOk t.status) (hbanks : BanksKept s t.mem)
    (hwf : t.hostCopy.wf) (hcopy : BanksOk s.build true t.hostCopy) : MachineOk t where
  build := hbuild ▸ hs.build
  status := hstatus
  config := by rw [hvalid, hbuild, hcfg]; exact hs.config
  canonical := hbanks.canonical hs.canonical
  banks := hbuild ▸ hbanks.banks hs
  copyCanonical := hwf
  copyBanks := hbuild ▸ hcopy

/-- The host's own list is no part of soundness. -/
theorem MachineOk.setHost (hs : MachineOk s) (rest : List HostEvent) : MachineOk { s with host := rest } :=
  hs.of_sameConfig rfl rfl rfl hs.status (.refl s) hs.copyCanonical hs.copyBanks

theorem MachineOk.hostRead (hs : MachineOk s) (a n : Nat) : MachineOk (s.hostRead a n) := by
  rcases s.hostRead_cases a n with ⟨v, h⟩ | ⟨_, v, k, h⟩ <;> rw [h]
  · exact hs.of_sameConfig rfl rfl rfl hs.status (.refl s) hs.copyCanonical hs.copyBanks
  · exact hs.of_sameConfig rfl rfl rfl hs.status.refuse (.refl s) hs.copyCanonical hs.copyBanks

theorem MachineOk.hostWrite (hs : MachineOk s) (a n : Nat) (v : BitVec 64) : MachineOk (s.hostWrite a n v) := by
  rcases s.hostWrite_cases a n v with ⟨r, h⟩ | h | h | ⟨_, he, h⟩ | ⟨k, _, h⟩ | ⟨r, _, hin, h⟩ <;> rw [h]
  · exact hs.of_sameConfig rfl rfl rfl hs.status (.refl s) hs.copyCanonical hs.copyBanks
  · exact hs.of_sameConfig rfl rfl rfl hs.status.refuse (.refl s) hs.copyCanonical hs.copyBanks
  · exact hs.of_sameConfig rfl rfl rfl (hs.status.writeOneToClear _) (.refl s) hs.copyCanonical hs.copyBanks
  · exact hs.of_sameConfig rfl rfl rfl (hs.status.issue he) (.refl s) hs.copyCanonical hs.copyBanks
  · exact hs.of_sameConfig rfl rfl rfl hs.status (.refl s) hs.copyCanonical hs.copyBanks
  · have hbytes : r.holds s.build a (bytesOfNat n v.toNat).length = true := by rwa [length_bytesOfNat]
    split
    · rename_i hcore
      exact hs.of_sameConfig rfl rfl rfl hs.status (.refl s) (Memory.writeBytes_wf hs.copyCanonical _ _)
        (hs.copyBanks.writeBytes hcore hbytes)
    · rename_i hcore
      exact hs.of_sameConfig rfl rfl rfl hs.status
        ⟨fun hw => Memory.writeBytes_wf hw _ _, fun hs => hs.banks.writeBytes (by simpa using hcore) hbytes⟩
        hs.copyCanonical hs.copyBanks

theorem MachineOk.afterReset (hs : MachineOk s) : MachineOk s.afterReset where
  build := hs.build
  status := ⟨fun _ => rfl, nofun, nofun, nofun⟩
  config := nofun
  canonical := List.Pairwise.nil
  banks := nofun
  copyCanonical := List.Pairwise.nil
  copyBanks := nofun

/-- What a command leaves in STATUS is legal. -/
theorem CommandEnd.statusOk {i : Instr} (h : CommandEnd s i t) (hs : StatusOk s.status) : StatusOk t.status := by
  cases h with
  | refused _ _ => exact hs.fail _
  | results _ _ | stored _ _ | built _ _ => exact hs.complete
  | configRefused => exact hs.clearValid.fail _
  | configured _ => exact hs.clearValid.setCfgValid_true.complete
  | solveFailed _ _ _ | insufficient => exact hs.setCValid_false.fail _
  | received _ _ _ => exact hs.setCValid_false.complete
  | solved _ hv _ | decoded hv _ _ _ =>
    simpa using (hs.setCValid_false.setCValid_true hv).complete

/-- A command keeps the machine sound. -/
theorem CommandEnd.machineOk {i : Instr} (h : CommandEnd s i t) (hs : MachineOk s) : MachineOk t := by
  have hstatus := h.statusOk hs.status
  have hbanks := h.banksKept
  obtain ⟨p, hp⟩ := h.hostCopy_eq
  have hwf : t.hostCopy.wf := hp ▸ Memory.clear_wf hs.copyCanonical p
  have hcopy : BanksOk s.build true t.hostCopy := hp ▸ hs.copyBanks.clear p
  cases h with
  | configRefused =>
    exact ⟨hs.build, hstatus, nofun, hs.canonical, hs.banks, hs.copyCanonical, hs.copyBanks⟩
  | configured hr =>
    exact ⟨hs.build, hstatus, fun _ => ⟨_, _, _, (s.args[0]).isLt, (s.args[1]).isLt, hr, rfl⟩, hs.canonical, hs.banks,
      hs.copyCanonical, hs.copyBanks⟩
  | refused _ _ | results _ _ | stored _ _ | built _ _ | solveFailed _ _ _ | insufficient | received _ _ _ =>
    exact hs.of_sameConfig rfl rfl rfl hstatus hbanks hwf hcopy
  | solved _ _ _ | decoded _ _ _ _ =>
    exact hs.of_sameConfig (by simp) (by simp) (by simp) hstatus hbanks hwf hcopy

end

/-- Settles O19: one host event, an illegal word, or the end of one command. -/
theorem stepKeepsMachineSound : Obligations.StepKeepsMachineSound := by
  unfold Obligations.StepKeepsMachineSound
  intro s t hs h
  rcases step_cases h with ⟨a, n, rest, _, rfl⟩ | ⟨a, n, v, rest, _, rfl⟩ | ⟨rest, _, rfl⟩ | ⟨rest, _, _, rfl⟩ |
    ⟨rest, e, _, _, _, rfl⟩ | ⟨rest, i, _, _, _, h⟩
  · exact (hs.setHost rest).hostRead _ _
  · exact (hs.setHost rest).hostWrite _ _ _
  · exact (hs.setHost rest).afterReset
  · exact hs.setHost rest
  · exact hs.of_sameConfig rfl rfl rfl (hs.status.fail _) (.refl s) hs.copyCanonical hs.copyBanks
  · exact (exec_end h).machineOk (hs.setHost rest)

/-! ### Who writes the registers -/

section
variable {s t : State}

theorem State.hostRead_build (s : State) (a n : Nat) : (s.hostRead a n).build = s.build := by
  rcases s.hostRead_cases a n with ⟨v, h⟩ | ⟨_, v, k, h⟩ <;> rw [h]

theorem State.hostRead_args (s : State) (a n : Nat) : (s.hostRead a n).args = s.args := by
  rcases s.hostRead_cases a n with ⟨v, h⟩ | ⟨_, v, k, h⟩ <;> rw [h]

theorem State.hostRead_res (s : State) (a n : Nat) : (s.hostRead a n).res = s.res := by
  rcases s.hostRead_cases a n with ⟨v, h⟩ | ⟨_, v, k, h⟩ <;> rw [h]

/-- No host write reaches the read-only memories or a RES register (10_state.md R29, 70_reset_and_hazards.md R332). -/
theorem State.hostWrite_build_res (s : State) (a n : Nat) (v : BitVec 64) :
    (s.hostWrite a n v).build = s.build ∧ (s.hostWrite a n v).res = s.res := by
  rcases s.hostWrite_cases a n v with ⟨r, h⟩ | h | h | ⟨_, _, h⟩ | ⟨k, _, h⟩ | ⟨r, _, _, h⟩ <;> rw [h]
  · exact ⟨rfl, rfl⟩
  · exact ⟨rfl, rfl⟩
  · exact ⟨rfl, rfl⟩
  · exact ⟨rfl, rfl⟩
  · exact ⟨rfl, rfl⟩
  · split <;> exact ⟨rfl, rfl⟩

/-- Only a write to ARGn changes an ARG register, and it changes that one (R29). -/
theorem State.writeReg_args (s : State) (r : RegSel) (v : Word) :
    (s.writeReg r v).args = s.args ∨ ∃ k, r = .arg k ∧ (s.writeReg r v).args = s.args.set k v := by
  cases r with
  | arg k =>
    rw [State.writeReg]
    split
    · exact .inl rfl
    · exact .inr ⟨k, rfl, rfl⟩
  | status => exact .inl rfl
  | cmd | id | res _ | cfg _ | mRows | reserved => rw [State.writeReg]; split <;> exact .inl rfl

/-- A host write that changes an ARG register is a 4-byte write at that register's address (R29, 20_memory.md R65). -/
theorem State.hostWrite_args (s : State) (a n : Nat) (v : BitVec 64) :
    (s.hostWrite a n v).args = s.args ∨
    ∃ k : Fin 8, a = 0x010 + 4 * k.val ∧ n = 4 ∧ (s.hostWrite a n v).args = s.args.set k (v.setWidth 32) := by
  unfold State.hostWrite
  split
  · exact .inl rfl
  · rename_i r hr
    obtain ⟨hn, hal, _, hreg⟩ := accessTarget_eq_reg hr
    rcases s.writeReg_args r (v.setWidth 32) with h | ⟨k, rfl, h⟩
    · exact .inl h
    · exact .inr ⟨k, offset_of_regAt_arg hal hreg, hn, h⟩
  · split
    · exact .inl rfl
    · split <;> exact .inl rfl

/-- The core's turn on a decoded word is a move of the core. -/
theorem coreMoves_of_host {rest : List HostEvent} (h : s.host = rest ∧ rest = [] ∨ s.host = .coreTurn :: rest) :
    CoreMoves s { s with host := rest } := by
  rcases h with ⟨rfl, hnil⟩ | h
  · exact .inl ⟨hnil, rfl⟩
  · exact .inr ⟨rest, h, rfl⟩

end

/-- Settles O14: of the six ways in which a step can go, reset and a host write change ARG registers, reset and a command
change RES registers, and the frame of the command says that a failing one does not. -/
theorem registerWriters : Obligations.RegisterWriters := by
  unfold Obligations.RegisterWriters
  intro s t hs h
  rcases step_cases h with ⟨a, n, rest, _, rfl⟩ | ⟨a, n, v, rest, hh, rfl⟩ | ⟨rest, hh, rfl⟩ | ⟨rest, _, _, rfl⟩ |
    ⟨rest, e, _, _, _, rfl⟩ | ⟨rest, i, hmove, hb, _, h⟩
  · exact ⟨State.hostRead_build _ _ _, fun hne => absurd (State.hostRead_args _ _ _) hne,
      fun hne => absurd (State.hostRead_res _ _ _) hne⟩
  · obtain ⟨hbuild, hres⟩ := State.hostWrite_build_res { s with host := rest } a.toNat n v
    refine ⟨hbuild, fun hne => ?_, fun hne => absurd hres hne⟩
    rcases State.hostWrite_args { s with host := rest } a.toNat n v with hsame | ⟨k, ha, rfl, hset⟩
    · exact absurd hsame hne
    · refine .inr ⟨k, v, rest, ?_, hset⟩
      rw [hh, ← ha, BitVec.ofNat_toNat, BitVec.setWidth_eq]
  · exact ⟨rfl, fun _ => .inl ⟨rest, hh⟩, fun _ => .inl ⟨rest, hh⟩⟩
  · exact ⟨rfl, fun hne => absurd rfl hne, fun hne => absurd rfl hne⟩
  · exact ⟨rfl, fun hne => absurd rfl hne, fun hne => absurd rfl hne⟩
  · obtain ⟨hbuild, _, hargs, _, _, _, hfail, _⟩ := commandFrame i _ t h
    refine ⟨hbuild, fun hne => absurd hargs hne, fun hne => .inr ⟨hb, ⟨_, coreMoves_of_host hmove⟩, ?_⟩⟩
    exact Bool.eq_false_iff.2 fun herr => hne (hfail (hs.status.2.2.1 hb).2 herr)

end Sys2Proof.Machine
end

section
/-! PROOFS. Reads of bank locations without value (spec/10_state.md R46; assumption log 22): when a read answers none, what
the reads of RX_ESI answer, and the fault of every command that reads such a location. -/

namespace Sys2Proof.Machine
open Sys2Proof.Claims

/-! ### When a read answers a value -/

section
variable {m : Memory} {a n : Nat}

theorem Memory.valued_of_readBytes {vs : List Byte} (h : m.readBytes a n = some vs) : Valued m a n := by
  intro k hk
  rw [Memory.getElem_readBytes h hk, List.getElem?_eq_getElem (by rw [Memory.length_readBytes h]; exact hk)]
  rfl

/-- A read of bytes one of which holds no value answers none. -/
theorem Memory.readBytes_eq_none (h : ¬Valued m a n) : m.readBytes a n = none := by
  cases hread : m.readBytes a n with
  | none => rfl
  | some vs => exact absurd (Memory.valued_of_readBytes hread) h

/-- A word whose bytes all hold a value, little-endian (20_memory.md R63). -/
theorem Memory.readWord_of_valued (h : Valued m a 4) :
    m.readWord a = some ((val m a).toNat + 256 * (val m (a + 1)).toNat + 65536 * (val m (a + 2)).toNat +
      16777216 * (val m (a + 3)).toNat) := by
  obtain ⟨vs, hvs⟩ := Memory.readBytes_isSome h
  have hval (k : Nat) (hk : k < 4) : val m (a + k) = (vs[k]?).getD 0 := by rw [val, Memory.getElem_readBytes hvs hk]
  obtain ⟨v0, v1, v2, v3, rfl⟩ : ∃ v0 v1 v2 v3, vs = [v0, v1, v2, v3] := by
    match vs, Memory.length_readBytes hvs with
    | [v0, v1, v2, v3], _ => exact ⟨v0, v1, v2, v3, rfl⟩
  rw [Memory.readWord, hvs, hval 1 (by omega), hval 2 (by omega), hval 3 (by omega),
    show val m a = v0 from hval 0 (by omega)]
  simp only [natOfBytes, Option.map_some, Option.some.injEq, List.getElem?_cons_succ, List.getElem?_cons_zero, Option.getD_some]
  omega

theorem Memory.valued_of_readWord {w : Nat} (h : m.readWord a = some w) : Valued m a 4 := by
  obtain ⟨vs, hvs, _⟩ := Option.map_eq_some_iff.1 h
  exact Memory.valued_of_readBytes hvs

end

section
variable {s : State}

theorem State.readSymRows_eq_none {r : Region} {rows : List Nat} {row : Nat} (hmem : row ∈ rows)
    (h : s.readSymRow r row = none) : s.readSymRows r rows = none := by
  induction rows with
  | nil => cases hmem
  | cons x rows ih =>
    rw [State.readSymRows]
    rcases List.mem_cons.1 hmem with rfl | hmem
    · rw [h]
    · rw [ih hmem]
      cases s.readSymRow r x <;> rfl

theorem State.readMatrix_eq_none {row n k : Nat} (hk : k < n)
    (h : s.mem.readBytes (matRow s.build .matA (row + k)) s.cfg.l.toNat = none) : s.readMatrix row n = none := by
  induction n generalizing row k with
  | zero => omega
  | succ n ih =>
    rw [State.readMatrix]
    cases k with
    | zero => rw [show row = row + 0 from rfl, h]
    | succ k =>
      rw [ih (k := k) (by omega) (by rwa [show row + 1 + k = row + (k + 1) by omega])]
      split <;> rfl

theorem State.xorRowsC_eq_none {ns : List Nat} {n : Nat} (hmem : n ∈ ns) (h : s.readSymRow .symC n = none)
    (acc : Symbol) : s.xorRowsC ns acc = none := by
  induction ns generalizing acc with
  | nil => cases hmem
  | cons x ns ih =>
    rw [State.xorRowsC]
    split
    · rfl
    · rename_i v hv
      rcases List.mem_cons.1 hmem with rfl | hmem
      · rw [h] at hv
        cases hv
      · exact ih hmem _

/-! ### RX_ESI and the received symbols (45_block_codec.md R280) -/

/-- RX_ESI words that all hold a value read as their ESIs. -/
theorem State.readEsis_of_valued {q n : Nat} (h : Valued s.mem (0x000300000000 + 4 * q) (4 * n)) :
    s.readEsis q n = some ((List.range' q n).map (esiAt s)) := by
  induction n generalizing q with
  | zero => rfl
  | succ n ih =>
    have hword : s.mem.readWord (wordAt .rxEsi q) = some (esiAt s q) :=
      Memory.readWord_of_valued fun k hk => h k (by omega)
    have hrest := ih (q := q + 1) fun k hk => by
      rw [show 0x000300000000 + 4 * (q + 1) + k = 0x000300000000 + 4 * q + (k + 4) by omega]
      exact h (k + 4) (by omega)
    rw [State.readEsis, hword, hrest]
    rfl

theorem State.valued_of_readEsis {q n : Nat} {esis : List Nat} (h : s.readEsis q n = some esis) :
    Valued s.mem (0x000300000000 + 4 * q) (4 * n) := by
  induction n generalizing q esis with
  | zero => intro k hk; omega
  | succ n ih =>
    rw [State.readEsis] at h
    split at h
    · cases h
    · rename_i v hv
      obtain ⟨rest, hrest, _⟩ := Option.map_eq_some_iff.1 h
      intro k hk
      by_cases hlow : k < 4
      · exact Memory.valued_of_readWord hv k hlow
      · have := ih hrest (k - 4) (by omega)
        rwa [show 0x000300000000 + 4 * (q + 1) + (k - 4) = 0x000300000000 + 4 * q + k by omega] at this

theorem State.readEsis_eq_none {n : Nat} (h : ¬Valued s.mem 0x000300000000 (4 * n)) : s.readEsis 0 n = none := by
  cases hread : s.readEsis 0 n with
  | none => rfl
  | some esis => exact absurd (State.valued_of_readEsis hread) h

/-- The ESIs of the first n received symbols. -/
def esisOf (s : State) (n : Nat) : List Nat := (List.range n).map (esiAt s)

theorem State.readEsis_eq_esisOf {n : Nat} (h : Valued s.mem 0x000300000000 (4 * n)) :
    s.readEsis 0 n = some (esisOf s n) := by
  rw [State.readEsis_of_valued h, esisOf, List.range_eq_range']

@[simp] theorem length_esisOf (s : State) (n : Nat) : (esisOf s n).length = n := by simp [esisOf]

theorem getD_esisOf {n q : Nat} (hq : q < n) : (esisOf s n).getD q 0 = esiAt s q := by
  simp [esisOf, List.getD_eq_getElem?_getD, hq]

/-- `first(e)` of the received ESIs. -/
theorem firstOf_esisOf {n e q : Nat} : firstOf (esisOf s n) e = some q ↔ IsFirst s n e q := by
  rw [firstOf, List.findIdx?_eq_some_iff_getElem]
  simp [esisOf, IsFirst, and_left_comm]

theorem missingOf_esisOf (s : State) (n : Nat) : missingOf s.cfg.k.toNat (esisOf s n) = missingRule s n := by
  refine List.filter_congr fun e _ => ?_
  rw [Bool.eq_iff_iff]
  simp [esisOf, received]

theorem repairsOf_esisOf (s : State) (n : Nat) : repairsOf s.cfg.k.toNat (esisOf s n) = repairsRule s n := by
  rw [repairsOf, length_esisOf]
  refine List.filter_congr fun q hq => ?_
  rw [getD_esisOf (List.mem_range.1 hq)]
  congr 1
  rw [Bool.eq_iff_iff, beq_iff_eq, firstOf_esisOf]
  simp [IsFirst, received, List.mem_range.1 hq]

theorem mem_presentRows_esisOf {n q : Nat} (hk : esiAt s q < s.cfg.k.toNat) (hq : IsFirst s n (esiAt s q) q) :
    q ∈ (presentRows s.cfg.k.toNat (esisOf s n)).map Prod.snd := by
  refine List.mem_map.2 ⟨(esiAt s q, q), List.mem_filterMap.2 ⟨esiAt s q, List.mem_range.2 hk, ?_⟩, rfl⟩
  rw [firstOf_esisOf.2 hq]
  rfl

end

/-! ### The operands of the vector commands -/

/-- A bank code 0 to 4 names the symbol bank at its address, with its number of rows (10_state.md R44, 40_gf256.md R120). -/
theorem bankOf_of_lt {c : BankCode} (h : c.toNat < 5) :
    ∃ r, bankOf c = some r ∧ (∀ b, bankRows b r = rowsOf b c.toNat) ∧
      ∀ (s : State) (row : Nat), symRow s.build r row = symAt s c.toNat row := by
  have hc : c = 0#4 ∨ c = 1#4 ∨ c = 2#4 ∨ c = 3#4 ∨ c = 4#4 := by bv_omega
  rcases hc with rfl | rfl | rfl | rfl | rfl
  · exact ⟨.symD, rfl, fun _ => rfl, fun _ _ => rfl⟩
  · exact ⟨.symC, rfl, fun _ => rfl, fun _ _ => rfl⟩
  · exact ⟨.symSrc, rfl, fun _ => rfl, fun _ _ => rfl⟩
  · exact ⟨.symRx, rfl, fun _ => rfl, fun _ _ => rfl⟩
  · exact ⟨.symOut, rfl, fun _ => rfl, fun _ _ => rfl⟩

section
variable {s : State} {db sb : BankCode}

theorem dstOperand_of_checks (hd : db.toNat < 5) (hv : s.status.cfgValid = true)
    (h0 : argn s 0 < rowsOf s.build db.toNat) : dstOperand db s = .ok (symAt s db.toNat (argn s 0)) := by
  obtain ⟨rd, hrd, hrows, haddr⟩ := bankOf_of_lt hd
  rw [dstOperand, hrd]
  dsimp only
  rw [if_neg (by simp [hv]), if_neg (by rw [hrows]; exact Nat.not_le_of_lt h0), haddr]
  rfl

theorem dstSrcOperands_of_checks (hd : db.toNat < 5) (hs : sb.toNat < 5) (hv : s.status.cfgValid = true)
    (h0 : argn s 0 < rowsOf s.build db.toNat) (h1 : argn s 1 < rowsOf s.build sb.toNat) :
    dstSrcOperands db sb s = .ok (symAt s db.toNat (argn s 0), symAt s sb.toNat (argn s 1)) := by
  obtain ⟨rd, hrd, hdrows, hdaddr⟩ := bankOf_of_lt hd
  obtain ⟨rs, hrs, hsrows, hsaddr⟩ := bankOf_of_lt hs
  rw [dstSrcOperands, hrd, hrs]
  dsimp only
  rw [if_neg (by simp [hv]), if_neg (by rw [hdrows]; exact Nat.not_le_of_lt h0),
    if_neg (by rw [hsrows]; exact Nat.not_le_of_lt h1), hdaddr, hsaddr]
  rfl

/-! ### The faults, command by command -/

/-- A command faults on its second operand whatever its first one holds. -/
theorem orNoValue_fault {α β : Type} {o : Option α} {o' : Option β} (h : o' = none) (k : α → β → Out) :
    (orNoValue o fun x => orNoValue o' (k x)) = .fault .noValue := by
  rw [h]
  cases o <;> rfl

/-- VXOR, VAXPY and VCOPY on a source row with a byte without value. -/
theorem vector_source_fault {dst src : Nat} (hop : dstSrcOperands db sb s = .ok (dst, src))
    (h : ¬Valued s.mem src (tOf s)) (beta : Byte) :
    exec (.vxor db sb) s = .fault .noValue ∧ exec (.vaxpy db sb beta) s = .fault .noValue ∧
      exec (.vcopy db sb) s = .fault .noValue := by
  have hsrc : s.readSymbol src = none := Memory.readBytes_eq_none h
  refine ⟨?_, ?_, ?_⟩
  · rw [exec, execVxor, hop]
    exact orNoValue_fault hsrc _
  · rw [exec, execVaxpy, hop]
    exact orNoValue_fault hsrc _
  · rw [exec, execVcopy, hop]
    dsimp only
    rw [hsrc, orNoValue_none]

/-- VXOR, VAXPY and VSCALE on a destination row with a byte without value. -/
theorem vector_destination_fault {dst src : Nat} (hop : dstSrcOperands db sb s = .ok (dst, src))
    (hop1 : dstOperand db s = .ok dst) (h : ¬Valued s.mem dst (tOf s)) (beta : Byte) :
    exec (.vxor db sb) s = .fault .noValue ∧ exec (.vaxpy db sb beta) s = .fault .noValue ∧
      exec (.vscale db beta) s = .fault .noValue := by
  have hdst : s.readSymbol dst = none := Memory.readBytes_eq_none h
  refine ⟨?_, ?_, ?_⟩
  · rw [exec, execVxor, hop]
    dsimp only
    rw [hdst, orNoValue_none]
  · rw [exec, execVaxpy, hop]
    dsimp only
    rw [hdst, orNoValue_none]
  · rw [exec, execVscale, hop1]
    dsimp only
    rw [hdst, orNoValue_none]

/-- PI_SOLVE on a row in use of MAT_A or SYM_D with a byte without value (44_pi_solver.md R240). -/
theorem piSolve_fault (hv : s.status.cfgValid = true) (hlo : s.cfg.l.toNat ≤ s.arg 0) (hhi : s.arg 0 ≤ s.build.mMax) {r : Nat}
    (hr : r < s.arg 0) (h : ¬Valued s.mem (aRow s r) (s.cfg.l.toNat) ∨ ¬Valued s.mem (dRow s r) (tOf s)) :
    exec .piSolve s = .fault .noValue := by
  have hrange : ¬(s.arg 0 < s.cfg.l.toNat ∨ s.build.mMax < s.arg 0) :=
    not_or.2 ⟨Nat.not_lt_of_le hlo, Nat.not_lt_of_le hhi⟩
  rw [exec, execPiSolve, needConfig_of_valid hv, if_neg hrange]
  rcases h with h | h
  · rw [State.readMatrix_eq_none (k := r) hr (by rw [Nat.zero_add]; exact Memory.readBytes_eq_none h), orNoValue_none]
  · exact orNoValue_fault (State.readSymRows_eq_none (List.mem_range.2 hr) (Memory.readBytes_eq_none h)) _

/-- BLK_ENCODE on a source row with a byte without value (45_block_codec.md R274). -/
theorem blkEncode_fault (hv : s.status.cfgValid = true) {e : Nat} (he : e < s.cfg.k.toNat)
    (h : ¬Valued s.mem (srcRow s e) (tOf s)) : exec .blkEncode s = .fault .noValue := by
  rw [exec, execBlkEncode, needConfig_of_valid hv,
    State.readSymRows_eq_none (List.mem_range.2 he) (Memory.readBytes_eq_none h), orNoValue_none]

/-- BLK_SYMBOL of a source symbol on its row (45_block_codec.md R276). -/
theorem blkSymbol_source_fault (hv : s.status.cfgValid = true) (hk : s.arg 0 < s.cfg.k.toNat) (hesi : s.arg 0 < 2 ^ 24)
    (h : ¬Valued s.mem (srcRow s (s.arg 0)) (tOf s)) : exec .blkSymbol s = .fault .noValue := by
  have hsrc : s.readSymRow .symSrc (s.arg 0) = none := Memory.readBytes_eq_none h
  rw [exec, execBlkSymbol, needConfig_of_valid hv, if_neg (Nat.not_le_of_lt hesi), if_pos hk, hsrc, orNoValue_none]

/-- `enc(X)` has no value where a SYM_C row among its indices has a byte without one (43_lt_encoder.md R210). -/
theorem State.enc_eq_none {x n : Nat} (hn : n ∈ indicesOf s.build s.cfg x) (h : ¬Valued s.mem (cRow s n) (tOf s)) :
    s.enc x = none :=
  State.xorRowsC_eq_none hn (Memory.readBytes_eq_none h) _

/-- LT_ENC on a SYM_C row among its indices (43_lt_encoder.md R211). -/
theorem ltEnc_fault (hv : s.status.cfgValid = true) (hc : s.status.cValid = true) {n : Nat}
    (hn : n ∈ indicesOf s.build s.cfg (s.arg 0)) (h : ¬Valued s.mem (cRow s n) (tOf s)) :
    exec .ltEnc s = .fault .noValue := by
  have henc : s.enc (s.arg 0) = none := State.enc_eq_none hn h
  rw [exec, execLtEnc, needConfig_of_valid hv, if_pos hc, henc, orNoValue_none]

/-- BLK_SYMBOL of a repair symbol on a SYM_C row among its indices (45_block_codec.md R276). -/
theorem blkSymbol_repair_fault (hv : s.status.cfgValid = true) (hc : s.status.cValid = true) (hk : s.cfg.k.toNat ≤ s.arg 0)
    (hesi : s.arg 0 < 2 ^ 24) {n : Nat} (hn : n ∈ indicesOf s.build s.cfg (isiOf s.cfg (s.arg 0)))
    (h : ¬Valued s.mem (cRow s n) (tOf s)) : exec .blkSymbol s = .fault .noValue := by
  have henc : s.enc (isiOf s.cfg (s.arg 0)) = none := State.enc_eq_none hn h
  rw [exec, execBlkSymbol, needConfig_of_valid hv, if_neg (Nat.not_le_of_lt hesi), if_neg (Nat.not_lt_of_le hk), if_pos hc,
    henc, orNoValue_none]

/-- BLK_DECODE on a byte of RX_ESI [0, n) (45_block_codec.md R280). -/
theorem blkDecode_esi_fault (hv : s.status.cfgValid = true) (hn : s.arg 0 ≤ s.build.rxMax)
    (h : ¬Valued s.mem 0x000300000000 (4 * s.arg 0)) : exec .blkDecode s = .fault .noValue := by
  have hesis : s.readEsis 0 (s.arg 0) = none := State.readEsis_eq_none h
  rw [exec, execBlkDecode, needConfig_of_valid hv, if_neg (Nat.not_lt_of_le hn), hesis, orNoValue_none]

/-- BLK_DECODE once it has read its ESIs and has enough symbols: it reads the rows of the source symbols, and, where some are
missing, the rows of the repairs (R280). -/
theorem blkDecode_row_fault (hv : s.status.cfgValid = true) (hn : s.arg 0 ≤ s.build.rxMax)
    (hvalued : Valued s.mem 0x000300000000 (4 * s.arg 0)) (hesi : ∀ q < s.arg 0, esiAt s q < 2 ^ 24)
    (henough : (missingRule s (s.arg 0)).length ≤ (repairsRule s (s.arg 0)).length) {q : Nat}
    (hrow : ¬Valued s.mem (rxRow s q) (tOf s))
    (huse : (esiAt s q < s.cfg.k.toNat ∧ IsFirst s (s.arg 0) (esiAt s q) q) ∨
      (missingRule s (s.arg 0) ≠ [] ∧ q ∈ repairsRule s (s.arg 0))) : exec .blkDecode s = .fault .noValue := by
  have hesis : s.readEsis 0 (s.arg 0) = some (esisOf s (s.arg 0)) := State.readEsis_eq_esisOf hvalued
  have hlegal : ¬(esisOf s (s.arg 0)).any (fun e => 2 ^ 24 ≤ e) = true := by
    simpa [esisOf] using hesi
  have hread : s.readSymRow .symRx q = none := Memory.readBytes_eq_none hrow
  rw [exec, execBlkDecode, needConfig_of_valid hv, if_neg (Nat.not_lt_of_le hn), hesis, orNoValue_some, if_neg hlegal]
  dsimp only
  rw [missingOf_esisOf, repairsOf_esisOf, if_neg (Nat.not_lt_of_le henough)]
  rcases huse with ⟨hk, hfirst⟩ | ⟨hmissing, hrepair⟩
  · rw [State.readSymRows_eq_none (mem_presentRows_esisOf hk hfirst) hread, orNoValue_none, orNoValue_none]
    split <;> rfl
  · rw [if_neg hmissing]
    exact orNoValue_fault (State.readSymRows_eq_none hrepair hread) _

end

/-- Settles O36: the fault of each command on each row that its rule reads. -/
theorem noValueFaults : Obligations.NoValueFaults := by
  unfold Obligations.NoValueFaults
  refine ⟨fun s db sb beta hd hs hv h0 h1 => ?_, fun s hv => ⟨fun hlo hhi r hr h => piSolve_fault hv hlo hhi hr h,
    fun e he h => blkEncode_fault hv he h, fun hk hesi h => blkSymbol_source_fault hv hk hesi h,
    fun hc n hn h => ltEnc_fault hv hc hn h, fun hc hk hesi n hn h => blkSymbol_repair_fault hv hc hk hesi hn h,
    fun hn => ⟨fun h => blkDecode_esi_fault hv hn h, fun hvalued hesi henough q _ hrow huse =>
      blkDecode_row_fault hv hn hvalued hesi henough hrow huse⟩⟩⟩
  have hop := dstSrcOperands_of_checks hd hs hv h0 h1
  exact ⟨fun h => vector_source_fault hop h beta,
    fun h => vector_destination_fault hop (dstOperand_of_checks hd hv h0) h beta⟩

end Sys2Proof.Machine
end

section
/-! PROOFS. Where the banks lie in the host window, and that they lie apart (spec/20_memory.md R60, R61). -/

namespace Sys2Proof.Machine
open Sys2Proof.Claims

/-! ### Sizes and places of the banks -/

theorem Region.mem_all (r : Region) : r ∈ Region.all := by
  cases r <;> decide

theorem Region.base_injective {r q : Region} (h : r.base = q.base) : r = q :=
  List.inj_on_of_nodup_map (f := Region.base) (by decide) r.mem_all q.mem_all h

section
variable {b : Build}

/-- The word banks are small, the byte banks below 2^34 (R8, R61). -/
theorem Region.size_le (hb : BuildOk b) (r : Region) : r.size b ≤ if r.isWords then 2 ^ 19 else 2 ^ 33 := by
  obtain ⟨⟨⟨_, hk, _, ht, hl, _, hrx, _⟩, _⟩, _⟩ := hb
  have htMax : b.tMax ≤ 2 ^ 33 := by omega
  have product {x y : Nat} (hx : x ≤ 2 ^ 17) (hy : y ≤ 2 ^ 16) : x * y ≤ 2 ^ 33 :=
    (Nat.mul_le_mul hx hy).trans (by norm_num)
  have hm : b.mMax ≤ 2 ^ 17 := Nat.add_le_add (by omega : b.lMax ≤ 2 ^ 16) (by omega : b.rxMax ≤ 2 ^ 16)
  cases r with
  | permC | rowD | rxEsi => exact Nat.mul_le_mul_left 4 (by omega : _ ≤ 2 ^ 17)
  | matA | matX | symD | symC | symSrc | symRx => exact product (by omega) (by omega)
  | symOut => exact htMax

/-- The banks lie apart: the base of the bank that holds an address follows from the address (R60, R61). -/
theorem Region.base_of_holds (hb : BuildOk b) {r : Region} {a n : Nat} (hn : 0 < n) (h : r.holds b a n = true) :
    r.base = if a < 2 ^ 44 then a / 2 ^ 32 * 2 ^ 32 else a / 2 ^ 44 * 2 ^ 44 := by
  have hsize := Region.size_le hb r
  obtain ⟨hlo, hhi⟩ := Region.holds_iff.1 h
  cases r <;> simp only [Region.base, Region.isWords, if_true, Bool.false_eq_true, if_false] at hlo hhi hsize ⊢ <;>
    split <;> omega

/-- No bank overlaps another (R61). -/
theorem Region.eq_of_holds (hb : BuildOk b) {r q : Region} {a n k : Nat} (hn : 0 < n) (hk : 0 < k)
    (hr : r.holds b a n = true) (hq : q.holds b a k = true) : r = q :=
  Region.base_injective ((Region.base_of_holds hb hn hr).trans (Region.base_of_holds hb hk hq).symm)

theorem Region.le_base (r : Region) : 2 ^ 32 ≤ r.base := by
  cases r <;> decide

theorem Region.base_le (r : Region) : r.base ≤ 0x700000000000 := by
  cases r <;> decide

end

/-- Settles O11: the addresses are the model's own formulas; the rest is the sizes and places above. -/
theorem elementAddresses : Obligations.ElementAddresses := by
  unfold Obligations.ElementAddresses
  intro b hb
  have hsize (r : Region) : r.size b ≤ 2 ^ 33 := (Region.size_le hb r).trans (by split <;> omega)
  refine ⟨fun _ _ => ⟨rfl, rfl⟩, fun _ _ => ⟨rfl, rfl, rfl, rfl, rfl⟩, fun _ => ⟨rfl, rfl, rfl⟩, fun r => ?_,
    fun r q a hr hq => Region.eq_of_holds hb Nat.one_pos Nat.one_pos hr hq, fun r => ?_⟩
  · have := hsize r
    omega
  · have := hsize r
    have := r.base_le
    have := r.le_base
    omega

end Sys2Proof.Machine
end

section
/-! PROOFS. Host accesses to the window: what the map admits, accesses while BUSY = 1, and the bytes of the banks
(spec/20_memory.md R60 to R68; 10_state.md R27). -/

namespace Sys2Proof.Machine
open Sys2Proof.Claims

/-! ### What the map admits -/

theorem widthOk_iff {words : Bool} {a n : Nat} :
    widthOk words a n = true ↔
      if words then n = 4 ∧ a % 4 = 0 else (n = 1 ∨ n = 2 ∨ n = 4 ∨ n = 8) ∧ a % n = 0 := by
  cases words <;> simp [widthOk, or_assoc]

/-- An admitted access has 1 to 8 bytes (R65). -/
theorem width_of_widthOk {words : Bool} {a n : Nat} (h : widthOk words a n = true) : 0 < n ∧ n ≤ 8 := by
  rw [widthOk_iff] at h
  split at h <;> omega

/-- An access goes to a bank when the bank holds its bytes and admits its width (R62, R65). -/
theorem accessTarget_eq_bank {b : Build} (hb : BuildOk b) {a n : Nat} {r : Region} :
    accessTarget b a n = some (.bank r) ↔ r.holds b a n = true ∧ widthOk r.isWords a n = true := by
  constructor
  · intro h
    unfold accessTarget at h
    split at h
    · split at h <;> cases h
    · split at h
      · cases h
      · rename_i q hq
        split at h <;> cases h
        exact ⟨List.find?_some (p := fun r : Region => r.holds b a n) hq, by assumption⟩
  · rintro ⟨hholds, hwidth⟩
    have hn := (width_of_widthOk hwidth).1
    have hge : ¬a < 0x1000 := by
      have := r.le_base
      have := (Region.holds_iff.1 hholds).1
      omega
    have hfind : Region.all.find? (fun q => q.holds b a n) = some r := by
      cases hfind : Region.all.find? (fun q => q.holds b a n) with
      | none => exact absurd hholds (List.find?_eq_none.1 hfind r r.mem_all)
      | some q =>
        have hq := List.find?_some (p := fun q : Region => q.holds b a n) hfind
        exact congrArg some (Region.eq_of_holds hb hn hn hq hholds)
    rw [accessTarget, if_neg hge, hfind]
    exact if_pos hwidth

/-- The map of R60 and R65 lists the banks of the model. -/
theorem mem_bankMap {b : Build} {e : Nat × Nat × Bool} :
    e ∈ bankMap b ↔ ∃ r : Region, e = (r.base, r.size b, r.isWords) := by
  have hmap : bankMap b = Region.all.map fun r => (r.base, r.size b, r.isWords) := rfl
  simp only [hmap, List.mem_map, Region.mem_all, true_and, eq_comm]

/-- The map admits an access exactly when it has a target. -/
theorem admitted_iff {b : Build} (hb : BuildOk b) {a n : Nat} : Admitted b a n ↔ ∃ g, accessTarget b a n = some g := by
  constructor
  · rintro (⟨hend, rfl, hal⟩ | ⟨e, he, hlo, hhi, hwidth⟩)
    · exact ⟨_, accessTarget_register b (by omega) hal⟩
    · obtain ⟨r, rfl⟩ := mem_bankMap.1 he
      exact ⟨.bank r, (accessTarget_eq_bank hb).2 ⟨Region.holds_iff.2 ⟨hlo, hhi⟩, widthOk_iff.2 hwidth⟩⟩
  · rintro ⟨g, hg⟩
    cases g with
    | reg r =>
      obtain ⟨rfl, hal, hlt, _⟩ := accessTarget_eq_reg hg
      exact .inl ⟨by omega, rfl, hal⟩
    | bank r =>
      obtain ⟨hholds, hwidth⟩ := (accessTarget_eq_bank hb).1 hg
      obtain ⟨hlo, hhi⟩ := Region.holds_iff.1 hholds
      exact .inr ⟨(r.base, r.size b, r.isWords), mem_bankMap.2 ⟨r, rfl⟩, hlo, hhi, widthOk_iff.1 hwidth⟩

section
variable {s : State} {a n : Nat}

/-- The answer to a read that has a target is data, also where the read is refused (R66, R68). -/
theorem State.hostRead_bus {g : Target} (h : accessTarget s.build a n = some g) :
    ∃ x, (s.hostRead a n).bus = .data x ∨ (s.hostRead a n).bus = .refusedRead x := by
  rw [State.hostRead, h]
  cases g with
  | reg r =>
    dsimp only
    split
    · cases r <;> exact ⟨_, .inr rfl⟩
    · exact ⟨_, .inl rfl⟩
  | bank r =>
    dsimp only
    split
    · exact ⟨_, .inr rfl⟩
    · exact ⟨_, .inl rfl⟩

theorem State.writeReg_bus (s : State) (r : RegSel) (v : Word) :
    (s.writeReg r v).bus = .written ∨ (s.writeReg r v).bus = .refusedWrite := by
  cases r with
  | status => exact .inl rfl
  | cmd | arg _ | id | res _ | cfg _ | mRows | reserved =>
    rw [State.writeReg]
    split
    · exact .inr rfl
    · exact .inl rfl

/-- The answer to a write that has a target is that it is done or refused (R66, R68). -/
theorem State.hostWrite_bus {g : Target} (h : accessTarget s.build a n = some g) (v : BitVec 64) :
    (s.hostWrite a n v).bus = .written ∨ (s.hostWrite a n v).bus = .refusedWrite := by
  rw [State.hostWrite, h]
  cases g with
  | reg r => exact s.writeReg_bus r _
  | bank r =>
    dsimp only
    split
    · exact .inr rfl
    · split <;> exact .inl rfl

end

/-- Settles O10: an access that the map does not admit has no target, and one that it admits has one. -/
theorem widthsAndMap : Obligations.WidthsAndMap := by
  unfold Obligations.WidthsAndMap
  intro s a n v hb
  refine ⟨fun hout => ?_, fun hadm => ?_⟩
  · have hnone : accessTarget s.build a.toNat n = none :=
      Option.eq_none_iff_forall_ne_some.2 fun g hg => hout ((admitted_iff hb).2 ⟨g, hg⟩)
    have hread := hostDoes_read s a n
    have hwrite := hostDoes_write s a n v
    rw [State.hostRead, hnone] at hread
    rw [State.hostWrite, hnone] at hwrite
    exact ⟨hread, hwrite⟩
  · obtain ⟨g, hg⟩ := (admitted_iff hb).1 hadm
    obtain ⟨x, hx⟩ := State.hostRead_bus hg
    exact ⟨⟨_, hostDoes_read s a n, by rcases hx with hx | hx <;> simp [hx], by rcases hx with hx | hx <;> simp [hx]⟩,
      ⟨_, hostDoes_write s a n v, State.hostWrite_bus hg v⟩⟩

/-! ### Accesses while BUSY = 1 (R68) -/

theorem offset_of_regAt_status {off : Nat} (h : regAt off = .status) : off = 0x008 := by
  by_contra h8
  unfold regAt at h
  rw [if_neg h8] at h
  split_ifs at h

theorem State.writeReg_busy {s : State} (hb : s.status.busy = true) {r : RegSel} (hr : r ≠ .status) (v : Word) :
    s.writeReg r v = s.refuseWrite := by
  cases r with
  | status => exact absurd rfl hr
  | cmd | arg _ | id | res _ | cfg _ | mRows | reserved => simp [State.writeReg, hb]

theorem State.hostWrite_busy {s : State} (hb : s.status.busy = true) {a n : Nat} {g : Target}
    (hg : accessTarget s.build a n = some g) (ha : a ≠ 0x008) (v : BitVec 64) : s.hostWrite a n v = writeRefused s := by
  rw [State.hostWrite, hg]
  cases g with
  | reg r =>
    obtain ⟨_, _, _, hreg⟩ := accessTarget_eq_reg hg
    refine State.writeReg_busy hb (fun hr => ha (offset_of_regAt_status (hreg.trans hr))) _
  | bank r => exact if_pos hb

/-- The offsets of the registers that R68 does not list. -/
theorem not_readableWhileBusy {off : Nat} (h0 : off ≠ 0x000) (h8 : off ≠ 0x008) (hout : ¬(0x030 ≤ off ∧ off ≤ 0x080)) :
    readableWhileBusy (regAt off) = false := by
  unfold regAt
  rw [if_neg h0, if_neg h8, dif_neg (c := 0x030 ≤ off ∧ off < 0x050) (by omega),
    dif_neg (c := 0x050 ≤ off ∧ off < 0x080) (by omega), if_neg (c := off = 0x080) (by omega)]
  split_ifs <;> rfl

theorem State.refuseReadReg_eq (s : State) (r : RegSel) (a n : Nat) :
    ∃ x k, s.refuseReadReg r a n =
      { s with status := { s.status with ovr := true }, bus := .refusedRead x, freeEpoch := k } := by
  cases r with
  | cmd | reserved => exact ⟨0, s.freeEpoch, rfl⟩
  | arg _ | id | status | res _ | cfg _ | mRows => exact ⟨_, s.freeEpoch + 1, rfl⟩

theorem State.hostRead_busy {s : State} (hb : s.status.busy = true) {a n : Nat} {g : Target}
    (hg : accessTarget s.build a n = some g) (h0 : a ≠ 0x000) (h8 : a ≠ 0x008) (hout : ¬(0x030 ≤ a ∧ a ≤ 0x080)) :
    ∃ x k, s.hostRead a n =
      { s with status := { s.status with ovr := true }, bus := .refusedRead x, freeEpoch := k } := by
  rw [State.hostRead, hg]
  cases g with
  | reg r =>
    obtain ⟨_, _, _, rfl⟩ := accessTarget_eq_reg hg
    dsimp only
    rw [if_pos (by simp [hb, not_readableWhileBusy h0 h8 hout])]
    exact s.refuseReadReg_eq _ a n
  | bank r => exact ⟨_, s.freeEpoch + 1, if_pos hb⟩

/-- Settles O9: the listed registers are read, and every other access that has a target is refused. -/
theorem accessWhileBusy : Obligations.AccessWhileBusy := by
  unfold Obligations.AccessWhileBusy
  intro s v hb
  have reads (off : Nat) (r : RegSel) (hreg : regAt off = r) (hr : readableWhileBusy r = true) (hlt : off < 0x1000)
      (hal : off % 4 = 0) : Reads s off (s.readReg r) := hreg ▸ reads_register s hlt hal (.inr (hreg ▸ hr))
  refine ⟨reads 0x000 .id rfl rfl (by omega) rfl, reads 0x008 .status rfl rfl (by omega) rfl,
    reads 0x080 .mRows rfl rfl (by omega) rfl, fun n => ?_, fun n hn => ?_, fun a n hbuild hadm ha => ?_,
    fun a n hbuild hadm h0 h8 hout => ?_⟩
  · exact reads _ (.res n) (regAt_res n) rfl (by omega) (by omega)
  · rw [cfgList_getD s.cfg ⟨n, hn⟩]
    exact reads _ (.cfg ⟨n, hn⟩) (regAt_cfg ⟨n, hn⟩) rfl (by omega) (by omega)
  · obtain ⟨g, hg⟩ := (admitted_iff hbuild).1 hadm
    have hne : a.toNat ≠ 0x008 := fun h => ha (BitVec.eq_of_toNat_eq h)
    exact State.hostWrite_busy hb hg hne v ▸ hostDoes_write s a n v
  · obtain ⟨g, hg⟩ := (admitted_iff hbuild).1 hadm
    obtain ⟨x, k, hread⟩ := State.hostRead_busy hb hg h0 h8 hout
    exact ⟨x, k, hread ▸ hostDoes_read s a n⟩

/-! ### Reads answer the same again (R66) -/

/-- While BUSY = 0 a read does not look at what the bus answered before, and changes nothing but the answer. -/
theorem State.hostRead_idle {s : State} (hb : s.status.busy = false) (y : BusResponse) (a n : Nat) :
    State.hostRead { s with bus := y } a n = { s with bus := (s.hostRead a n).bus } := by
  unfold State.hostRead
  dsimp only
  split
  · rfl
  · simp only [hb, Bool.false_and, Bool.false_eq_true, if_false]
    rfl
  · simp only [hb, Bool.false_eq_true, if_false]
    rfl

/-- Settles O13: a read changes the bus and what a refusal changes; with BUSY = 0 its answer is a function of the state. -/
theorem readsHaveNoSideEffect : Obligations.ReadsHaveNoSideEffect := by
  unfold Obligations.ReadsHaveNoSideEffect
  intro s a n
  refine ⟨?_, fun hb => ⟨(s.hostRead a.toNat n).bus, fun y rest => ?_⟩⟩
  · have hdoes := hostDoes_read s a n
    rcases s.hostRead_cases a.toNat n with ⟨x, h⟩ | ⟨_, x, k, h⟩
    · exact ⟨x, s.freeEpoch, s.status.ovr, h ▸ hdoes⟩
    · exact ⟨x, s.freeEpoch + k, true, h ▸ hdoes⟩
  · have hdoes := hostDoes_read { s with bus := y, host := .read a n :: rest } a n rest rfl
    rw [hdoes, State.hostRead_setHost { s with bus := y }, State.hostRead_idle hb]

/-! ### Byte order (R63) -/

/-- Byte k of a value, least significant first. -/
theorem getElem?_bytesOfNat {n v k : Nat} (hk : k < n) : (bytesOfNat n v)[k]? = some (BitVec.ofNat 8 (v / 256 ^ k)) := by
  induction n generalizing v k with
  | zero => omega
  | succ n ih =>
    cases k with
    | zero => simp [bytesOfNat]
    | succ k => rw [bytesOfNat, List.getElem?_cons_succ, ih (by omega), Nat.div_div_eq_div_mul, ← Nat.pow_succ']

theorem natOfBytes_lt (vs : List Byte) : natOfBytes vs < 256 ^ vs.length := by
  induction vs with
  | nil => exact Nat.one_pos
  | cons v vs ih =>
    have := v.isLt
    rw [natOfBytes, List.length_cons, Nat.pow_succ]
    omega

theorem natOfBytes_digit (vs : List Byte) (k : Nat) : natOfBytes vs / 256 ^ k % 256 = (vs.getD k 0).toNat := by
  induction vs generalizing k with
  | nil => simp [natOfBytes]
  | cons v vs ih =>
    have := v.isLt
    cases k with
    | zero => simp only [natOfBytes, Nat.pow_zero, Nat.div_one, List.getD_cons_zero]; omega
    | succ k =>
      rw [natOfBytes, Nat.pow_succ', ← Nat.div_div_eq_div_mul, List.getD_cons_succ, ← ih]
      congr 2
      omega

/-- The value that up to 8 bytes have on the bus. -/
theorem toNat_busValue {vs : List Byte} (h : vs.length ≤ 8) : (busValue vs).toNat = natOfBytes vs := by
  have hlt := (natOfBytes_lt vs).trans_le (Nat.pow_le_pow_right (by omega) h)
  rw [busValue, BitVec.toNat_ofNat, Nat.mod_eq_of_lt (hlt.trans_eq (by norm_num))]

/-- A host read of bytes all of which are found returns them. -/
theorem hostBytes_eq {found : Nat → Option Byte} {epoch a : Nat} {vs : List Byte}
    (h : ∀ k < vs.length, found (a + k) = some (vs.getD k 0)) : hostBytes found epoch a vs.length = vs := by
  induction vs generalizing a with
  | nil => rfl
  | cons v vs ih =>
    have hfirst : found a = some v := h 0 (Nat.zero_lt_succ _)
    rw [List.length_cons, hostBytes, hfirst, ih fun k hk => ?_]
    · rfl
    · rw [Nat.add_assoc, Nat.add_comm 1]
      exact h (k + 1) (Nat.succ_lt_succ hk)

/-- A store of the low n bytes of a value stores byte k at `a + k`, and nothing else. -/
theorem storesOnly_writeBytes (m : Memory) (a n v : Nat) :
    StoresOnly m (m.writeBytes a (bytesOfNat n v)) a n fun k => BitVec.ofNat 8 (v / 256 ^ k) := by
  intro x
  rw [Memory.read_writeBytes, length_bytesOfNat]
  split
  · exact getElem?_bytesOfNat (by omega)
  · rfl

theorem Region.coreOnly_iff {r : Region} : r.coreOnly = true ↔ r = .permC ∨ r = .rowD ∨ r = .matX := by
  cases r <;> simp [Region.coreOnly]

/-- Settles O12: the access goes to the bank, which stores or finds its bytes in little-endian order. -/
theorem hostBytesAreLittleEndian : Obligations.HostBytesAreLittleEndian := by
  unfold Obligations.HostBytesAreLittleEndian
  intro s a n v r hb hidle hholds hwidth
  have htarget := (accessTarget_eq_bank hb).2 ⟨hholds, hwidth⟩
  have hwrite := hostDoes_write s a n v
  rw [State.hostWrite, htarget] at hwrite
  simp only [hidle, Bool.false_eq_true, if_false] at hwrite
  refine ⟨fun hperm hrow hmat => ⟨_, ?_, storesOnly_writeBytes s.mem _ n _⟩, fun hcore => ⟨_, ?_,
    storesOnly_writeBytes s.hostCopy _ n _⟩, fun w hlen hw => ?_⟩
  · rwa [if_neg (by simp [Region.coreOnly_iff, hperm, hrow, hmat])] at hwrite
  · rwa [if_pos (Region.coreOnly_iff.2 hcore)] at hwrite
  · subst hlen
    have hfound : hostBytes s.hostByte s.freeEpoch a.toNat w.length = w := by
      refine hostBytes_eq fun k hk => ?_
      rcases hw k hk with h | ⟨hnone, h⟩
      · rw [State.hostByte, h, Option.some_or]
      · rw [State.hostByte, hnone, h, Option.none_or]
    have hread := hostDoes_read s a w.length
    rw [State.hostRead, htarget] at hread
    simp only [hidle, Bool.false_eq_true, if_false, hfound] at hread
    refine ⟨_, hread, ?_, fun k _ => ?_⟩
    · rw [toNat_busValue (width_of_widthOk hwidth).2]
      exact natOfBytes_lt w
    · rw [toNat_busValue (width_of_widthOk hwidth).2]
      exact natOfBytes_digit w k

end Sys2Proof.Machine
end

section
/-! PROOFS. The prime walk of the tuple-index routine: the intermediate-symbol indices of a configured block are below L
(spec/41_tables.md R143, R144; 42_tuple_matrix.md R170, R175). -/

namespace Sys2Proof.Machine

/-! ### The smallest prime from n on -/

theorem isPrime_iff {n : Nat} : isPrime n = true ↔ n.Prime := by
  rw [isPrime, Bool.and_eq_true, decide_eq_true_iff, List.all_eq_true, Nat.prime_def_lt']
  refine and_congr_right fun _ => forall_congr' fun d => ?_
  simp only [List.mem_range, Bool.or_eq_true, decide_eq_true_iff, bne_iff_ne, Nat.dvd_iff_mod_eq_zero]
  exact ⟨fun h h2 hlt => (h hlt).resolve_left (Nat.not_lt_of_le h2),
    fun h hlt => or_iff_not_imp_left.2 fun h2 => h (Nat.le_of_not_lt h2) hlt⟩

/-- A search that is long enough finds a prime, at most `fuel` beyond its start. -/
theorem primeFrom_of_prime {fuel n q : Nat} (hq : q.Prime) (hlo : n ≤ q) (hhi : q < n + fuel) :
    (primeFrom fuel n).Prime ∧ n ≤ primeFrom fuel n ∧ primeFrom fuel n ≤ q := by
  induction fuel generalizing n with
  | zero => omega
  | succ fuel ih =>
    rw [primeFrom]
    split
    · rename_i hn
      exact ⟨isPrime_iff.1 hn, Nat.le_refl n, hlo⟩
    · rename_i hn
      have hne : n ≠ q := by
        rintro rfl
        exact hn (isPrime_iff.2 hq)
      obtain ⟨hprime, hge, hle⟩ := ih (n := n + 1) (by omega) (by omega)
      exact ⟨hprime, by omega, hle⟩

/-- Bertrand's postulate bounds the search for a prime (R143; assumption log 16). -/
theorem primeCeil_spec {n : Nat} (hn : n ≠ 0) : (primeCeil n).Prime ∧ n ≤ primeCeil n ∧ primeCeil n ≤ 2 * n := by
  obtain ⟨q, hq, hlo, hhi⟩ := Nat.exists_prime_lt_and_le_two_mul n hn
  obtain ⟨hprime, hge, hle⟩ := primeFrom_of_prime (fuel := n + 2) (n := n) hq hlo.le (by omega)
  exact ⟨hprime, hge, hle.trans hhi⟩

/-! ### The walk modulo P1 -/

/-- The PI skip ends below P when its walk gets there within `fuel` steps. -/
theorem skipPi_lt_of_step {p p1 a1 fuel b1 : Nat} (hb : b1 < p1) {j : Nat} (hj : j ≤ fuel)
    (hstep : (b1 + j * a1) % p1 < p) : skipPi p p1 a1 fuel b1 < p := by
  induction fuel generalizing b1 j with
  | zero =>
    obtain rfl : j = 0 := Nat.le_zero.1 hj
    simpa [skipPi, Nat.mod_eq_of_lt hb] using hstep
  | succ fuel ih =>
    rw [skipPi]
    split
    · assumption
    · rename_i hge
      cases j with
      | zero => exact absurd (by simpa [Nat.mod_eq_of_lt hb] using hstep) hge
      | succ j =>
        refine ih (Nat.mod_lt _ (Nat.zero_lt_of_lt hb)) (j := j) (by omega) ?_
        rwa [Nat.mod_add_mod, Nat.add_assoc, Nat.add_comm a1, ← Nat.succ_mul]

/-- A walk modulo a prime with a step that is no multiple of it meets 0. -/
theorem exists_step_mod_eq_zero {q a1 : Nat} (hq : q.Prime) (hpos : 0 < a1) (hlt : a1 < q) (b1 : Nat) :
    ∃ j < q, (b1 + j * a1) % q = 0 := by
  have : Fact q.Prime := ⟨hq⟩
  have hne : (a1 : ZMod q) ≠ 0 := by
    rw [Ne, ZMod.natCast_eq_zero_iff]
    exact Nat.not_dvd_of_pos_of_lt hpos hlt
  refine ⟨(-(b1 : ZMod q) * (a1 : ZMod q)⁻¹).val, ZMod.val_lt _, ?_⟩
  rw [← Nat.dvd_iff_mod_eq_zero, ← ZMod.natCast_eq_zero_iff]
  simp [hne]

/-- The PI skip ends below P (R175). -/
theorem skipPi_lt {p q a1 b1 : Nat} (hq : q.Prime) (hp : 0 < p) (hpos : 0 < a1) (hlt : a1 < q) (hb : b1 < q) :
    skipPi p q a1 q b1 < p := by
  obtain ⟨j, hj, hzero⟩ := exists_step_mod_eq_zero hq hpos hlt b1
  exact skipPi_lt_of_step hb hj.le (hzero ▸ hp)

/-! ### The indices of a tuple -/

theorem lt_of_mem_ltTail {w a n b x : Nat} (hw : 0 < w) (h : x ∈ ltTail w a n b) : x < w := by
  induction n generalizing b with
  | zero => cases h
  | succ n ih =>
    rcases List.mem_cons.1 h with rfl | h
    · exact Nat.mod_lt _ hw
    · exact ih h

theorem lt_of_mem_piTail {w p q a1 n b1 x : Nat} (hq : q.Prime) (hp : 0 < p) (hpos : 0 < a1) (hlt : a1 < q)
    (h : x ∈ piTail w p q a1 n b1) : x < w + p := by
  induction n generalizing b1 with
  | zero => cases h
  | succ n ih =>
    rcases List.mem_cons.1 h with rfl | h
    · exact Nat.add_lt_add_left (skipPi_lt hq hp hpos hlt (Nat.mod_lt _ hq.pos)) w
    · exact ih h

/-- A tuple whose LT part stays below W and whose PI part walks modulo P1 (R170). -/
structure LtTuple.Walks (w q : Nat) (t : LtTuple) : Prop where
  b : t.b < w
  a1_pos : 0 < t.a1
  a1_lt : t.a1 < q
  b1 : t.b1 < q

/-- The indices of such a tuple are below W + P (R175). -/
theorem lt_of_mem_tupleIndices {w p q : Nat} {t : LtTuple} (hq : q.Prime) (hp : 0 < p) (ht : t.Walks w q) {x : Nat}
    (h : x ∈ tupleIndices w p q t) : x < w + p := by
  have hw : 0 < w := Nat.zero_lt_of_lt ht.b
  simp only [tupleIndices, List.mem_append, List.mem_cons] at h
  rcases h with (rfl | h) | rfl | h
  · exact Nat.lt_add_right p ht.b
  · exact Nat.lt_add_right p (lt_of_mem_ltTail hw h)
  · exact Nat.add_lt_add_left (skipPi_lt hq hp ht.a1_pos ht.a1_lt ht.b1) w
  · exact lt_of_mem_piTail hq hp ht.a1_pos ht.a1_lt h

/-! ### The indices of a configured block -/

/-- The parameters of the tuple generator in a configured block: W + P = L, and P1 is a prime (41_tables.md R144). -/
structure WalkFits (c : BlockParams) : Prop where
  w : 0 < c.w.toNat
  p : 0 < c.p.toNat
  l : c.w.toNat + c.p.toNat = c.l.toNat
  p1 : c.p1.toNat.Prime

theorem ConfigOk.walkFits {b : Build} {c : BlockParams} (hb : BuildOk b) (hc : ConfigOk b c) : WalkFits c := by
  obtain ⟨⟨⟨_, _, _, _, hlMax, _⟩, _⟩, _⟩ := hb
  obtain ⟨k, t, r, _, _, hrow, rfl⟩ := hc
  obtain ⟨_, _, _, _, _, _, hadm, hl⟩ := configRow_some hrow
  obtain ⟨⟨⟨⟨hs, hh⟩, hw⟩, hsw⟩, hws⟩ :
      (((1 ≤ r.s ∧ 2 ≤ r.h) ∧ 3 ≤ r.w) ∧ r.s ≤ r.w) ∧ r.w ≤ r.kp + r.s := by
    simpa [rowAdmissible] using hadm
  have value {n : Nat} (hn : n ≤ 2 * 65536) : (word n).toNat = n := toNat_word (by omega)
  have hL : (word (r.kp + r.s + r.h)).toNat = r.kp + r.s + r.h := value (by omega)
  have hW : (word r.w).toNat = r.w := value (by omega)
  have hP : (word (r.kp + r.s + r.h - r.w)).toNat = r.kp + r.s + r.h - r.w := value (by omega)
  obtain ⟨hprime, _, hle⟩ := primeCeil_spec (n := r.kp + r.s + r.h - r.w) (by omega)
  constructor
  · show 0 < (word r.w).toNat
    omega
  · show 0 < (word (r.kp + r.s + r.h - r.w)).toNat
    omega
  · show (word r.w).toNat + (word (r.kp + r.s + r.h - r.w)).toNat = (word (r.kp + r.s + r.h)).toNat
    omega
  · show (word (primeCeil (r.kp + r.s + r.h - r.w))).toNat.Prime
    rwa [value (by omega)]

theorem randOf_lt (b : Build) (y i : Nat) {m : Nat} (hm : 0 < m) : randOf b y i m < m := Nat.mod_lt _ hm

theorem tupleOf_walks (b : Build) {c : BlockParams} (hc : WalkFits c) (x : Nat) :
    (tupleOf b c x).Walks c.w.toNat c.p1.toNat := by
  have h2 := hc.p1.two_le
  have hstep := randOf_lt b x 4 (m := c.p1.toNat - 1) (by omega)
  exact ⟨randOf_lt b _ 2 hc.w, Nat.add_pos_left Nat.one_pos _, by simp only [tupleOf]; omega,
    randOf_lt b x 5 hc.p1.pos⟩

/-- Every intermediate-symbol index of a configured block is below L (R175). -/
theorem lt_of_mem_indicesOf {b : Build} {c : BlockParams} (hc : WalkFits c) {x n : Nat} (h : n ∈ indicesOf b c x) :
    n < c.l.toNat :=
  hc.l ▸ lt_of_mem_tupleIndices hc.p1 hc.p (tupleOf_walks b hc x) h

theorem MachineOk.walkFits {s : State} (hs : MachineOk s) (hv : s.status.cfgValid = true) : WalkFits s.cfg :=
  (hs.config hv).walkFits hs.build

end Sys2Proof.Machine
end

section
/-! PROOFS. Commands and the configured block: which bytes a command may write and read (spec/20_memory.md R67), and that two
states which agree on the bytes that it may read end alike. -/

namespace Sys2Proof.Machine
open Sys2Proof.Claims

/-! ### The bytes of the configured block -/

/-- The bytes that a command may write: bytes [0, T) of symbol rows and columns [0, L) of MAT_A rows (R67). -/
abbrev Writable (s : State) (a : Nat) : Prop := InSymbols s a ∨ InMatrix s a

/-- The bytes that a command may read: those that it may write, and RX_ESI. -/
abbrev Readable (s : State) (a : Nat) : Prop := InSymbols s a ∨ InMatrix s a ∨ InEsi s a

section
variable {s : State} {a : Nat}

theorem Writable.readable (h : Writable s a) : Readable s a := h.imp_right .inl

theorem symRow_writable {r : Region} {row k : Nat} (hrow : row < bankRows s.build r) (hk : k < s.symLen) :
    Writable s (symRow s.build r row + k) := by
  refine .inl ?_
  cases r with
  | symD => exact ⟨0, by omega, row, hrow, k, hk, rfl⟩
  | symC => exact ⟨1, by omega, row, hrow, k, hk, rfl⟩
  | symSrc => exact ⟨2, by omega, row, hrow, k, hk, rfl⟩
  | symRx => exact ⟨3, by omega, row, hrow, k, hk, rfl⟩
  | symOut => exact ⟨4, by omega, row, hrow, k, hk, rfl⟩
  | permC | rowD | rxEsi | matA | matX => exact absurd hrow (Nat.not_lt_zero row)

theorem matRow_writable {row c : Nat} (hrow : row < s.build.mMax) (hc : c < s.cfg.l.toNat) :
    Writable s (matRow s.build .matA row + c) := .inr ⟨row, hrow, c, hc, rfl⟩

theorem wordAt_rxEsi_readable {q k : Nat} (hq : q < s.build.rxMax) (hk : k < 4) : Readable s (wordAt .rxEsi q + k) := by
  refine .inr (.inr ?_)
  rw [wordAt, Region.base]
  constructor <;> omega

end

/-! ### The scratch of a solve (44_pi_solver.md R246) -/

/-- The block of rows and columns, as the addresses it is made of. -/
theorem inBlock_iff {base stride rows cols a : Nat} (h : cols ≤ stride) :
    inBlock base stride rows cols a = true ↔ ∃ r < rows, ∃ c < cols, a = base + r * stride + c := by
  simp only [inBlock, Bool.and_eq_true, decide_eq_true_iff]
  constructor
  · rintro ⟨⟨hlo, hhi⟩, hcol⟩
    refine ⟨(a - base) / stride, Nat.div_lt_of_lt_mul (by rw [Nat.mul_comm]; omega), (a - base) % stride, hcol, ?_⟩
    rw [Nat.add_assoc, Nat.div_add_mod']
    omega
  · rintro ⟨r, hr, c, hc, rfl⟩
    have hend := row_add_le hr (Nat.lt_of_lt_of_le hc h)
    refine ⟨⟨by omega, by omega⟩, ?_⟩
    rw [Nat.add_assoc, Nat.add_sub_cancel_left, Nat.mul_add_mod', Nat.mod_eq_of_lt (hc.trans_le h)]
    exact hc

theorem State.inScratch_iff {s : State} (hs : BlockFits s.build s.cfg) {m a : Nat} :
    s.inScratch m a = true ↔ Scratch s m a := by
  simp only [State.inScratch, Scratch, Bool.or_eq_true, inBlock_iff hs.l, inBlock_iff (Nat.le_refl 4),
    inBlock_iff (cols := s.symLen) hs.t]
  constructor
  · rintro ((((⟨r, hr, c, hc, rfl⟩ | ⟨r, hr, c, hc, rfl⟩) | ⟨r, hr, j, hj, rfl⟩) | ⟨r, hr, j, hj, rfl⟩) |
      ⟨r, hr, k, hk, rfl⟩)
    · exact .inl ⟨r, hr, c, hc, .inl rfl⟩
    · exact .inl ⟨r, hr, c, hc, .inr rfl⟩
    · exact .inr (.inl ⟨r, hr, j, hj, by rw [Nat.mul_comm]; rfl⟩)
    · exact .inr (.inr (.inl ⟨r, hr, j, hj, by rw [Nat.mul_comm]; rfl⟩))
    · exact .inr (.inr (.inr ⟨r, hr, k, hk, rfl⟩))
  · rintro (⟨r, hr, c, hc, rfl | rfl⟩ | ⟨r, hr, j, hj, rfl⟩ | ⟨r, hr, j, hj, rfl⟩ | ⟨r, hr, k, hk, rfl⟩)
    · exact .inl (.inl (.inl (.inl ⟨r, hr, c, hc, rfl⟩)))
    · exact .inl (.inl (.inl (.inr ⟨r, hr, c, hc, rfl⟩)))
    · exact .inl (.inl (.inr ⟨r, hr, j, hj, by rw [Nat.mul_comm]; rfl⟩))
    · exact .inl (.inr ⟨r, hr, j, hj, by rw [Nat.mul_comm]; rfl⟩)
    · exact .inr ⟨r, hr, k, hk, rfl⟩

section
variable {s : State} {m a : Nat}

theorem scratch_mono {n : Nat} (hmn : m ≤ n) (h : Scratch s m a) : Scratch s n a := by
  rcases h with ⟨r, hr, h⟩ | ⟨r, hr, h⟩ | h | ⟨r, hr, h⟩
  · exact .inl ⟨r, hr.trans_le hmn, h⟩
  · exact .inr (.inl ⟨r, hr.trans_le hmn, h⟩)
  · exact .inr (.inr (.inl h))
  · exact .inr (.inr (.inr ⟨r, hr.trans_le hmn, h⟩))

/-- A byte of the scratch is one that a command may write, or one of a bank that only CORE writes. -/
theorem writable_or_coreOnly_of_scratch (hs : BlockFits s.build s.cfg) (hm : m ≤ s.build.mMax) (h : Scratch s m a) :
    Writable s a ∨ ∃ r : Region, r.coreOnly = true ∧ r.holds s.build a 1 = true := by
  have hl := hs.l
  rcases h with ⟨r, hr, c, hc, rfl | rfl⟩ | ⟨r, hr, j, hj, rfl⟩ | ⟨r, hr, j, hj, rfl⟩ | ⟨r, hr, k, hk, rfl⟩
  · exact .inl (matRow_writable (hr.trans_le hm) hc)
  · have hrow := row_add_le (hr.trans_le hm) (Nat.le_trans (Nat.succ_le_of_lt hc) hl)
    refine .inr ⟨.matX, rfl, Region.holds_iff.2 ⟨by simp only [xRow, Region.base]; omega, ?_⟩⟩
    simp only [xRow, Region.base, Region.size]
    omega
  · refine .inr ⟨.rowD, rfl, Region.holds_iff.2 ⟨by simp only [Region.base]; omega, ?_⟩⟩
    simp only [Region.base, Region.size]
    omega
  · have hr : r < s.cfg.l.toNat := hr
    refine .inr ⟨.permC, rfl, Region.holds_iff.2 ⟨by simp only [Region.base]; omega, ?_⟩⟩
    simp only [Region.base, Region.size]
    omega
  · exact .inl (symRow_writable (r := .symD) (hr.trans_le hm) hk)

theorem Memory.mem_of_read {m : Memory} {v : Byte} (h : m.read a = some v) : (a, v) ∈ m := by
  induction m with
  | nil => cases h
  | cons x m ih =>
    rw [Memory.read_cons] at h
    split at h
    · rename_i ha
      obtain rfl := Option.some.inj h
      exact ha ▸ List.mem_cons_self
    · exact List.mem_cons_of_mem _ (ih h)

/-- The banks that only CORE writes hold no value in a sound state (10_state.md R20, R246). -/
theorem MachineOk.read_eq_none (hs : MachineOk s) {r : Region} (hr : r.coreOnly = true) (ha : r.holds s.build a 1 = true) :
    s.mem.read a = none := by
  cases hread : s.mem.read a with
  | none => rfl
  | some v =>
    obtain ⟨q, hq, hcore⟩ := hs.banks _ (Memory.mem_of_read hread)
    obtain rfl := Region.eq_of_holds hs.build Nat.one_pos Nat.one_pos ha hq
    exact absurd hr (by simp [hcore])

end

/-! ### Two runs of a command -/

/-- Replace the banks and what the host stored beside them. -/
def State.setBanks (s : State) (m c : Memory) : State := { s with mem := m, hostCopy := c }

/-- Where two runs that began in `s` and `s'` stand, at `u` and `u'`: the registers and the bytes that a command may read are
alike, the bytes that it may not write are as they were, and of the first run's host copy only scratch was forgotten. -/
structure Alike (s s' u u' : State) : Prop where
  regs : u' = u.setBanks u'.mem u'.hostCopy
  readable : ∀ a, Readable s a → u'.mem.read a = u.mem.read a
  frame : ∀ a, ¬Writable s a → u.mem.read a = s.mem.read a ∧ u'.mem.read a = s'.mem.read a
  copy : ∀ a, u.hostCopy.read a ≠ s.hostCopy.read a → Scratch s (mMaxOf s.build) a ∧ u.hostCopy.read a = none

namespace Alike

variable {s s' u u' : State}

theorem banks (h : Alike s s' u u') : ∃ m c, u' = u.setBanks m c := ⟨_, _, h.regs⟩

/-- A change of registers only. -/
theorem update {f : State → State} (h : Alike s s' u u')
    (hf : ∀ (u : State) m c, f (u.setBanks m c) = (f u).setBanks m c) : Alike s s' (f u) (f u') := by
  have own (u : State) : f u = (f u).setBanks u.mem u.hostCopy := hf u u.mem u.hostCopy
  have hmem (u : State) : (f u).mem = u.mem := (congrArg State.mem (own u) :)
  have hcopy (u : State) : (f u).hostCopy = u.hostCopy := (congrArg State.hostCopy (own u) :)
  constructor
  · rw [hmem u', hcopy u', ← hf, ← h.regs]
  · simpa only [hmem] using h.readable
  · simpa only [hmem] using h.frame
  · simpa only [hcopy] using h.copy

/-- The same bytes stored where a command may write. -/
theorem writeBytes (h : Alike s s' u u') {a : Nat} {v : List Byte} (hin : ∀ k < v.length, Writable s (a + k)) :
    Alike s s' (u.setMem (u.mem.writeBytes a v)) (u'.setMem (u'.mem.writeBytes a v)) := by
  obtain ⟨m, c, rfl⟩ := h.banks
  refine ⟨rfl, fun x hx => ?_, fun x hx => ?_, h.copy⟩
  · simp only [State.setMem_mem, Memory.read_writeBytes, h.readable x hx]
  · have hout : ¬(a ≤ x ∧ x < a + v.length) := fun hx' => hx (by
      simpa [Nat.add_sub_cancel' hx'.1] using hin (x - a) (by omega))
    simpa only [State.setMem_mem, Memory.read_writeBytes, if_neg hout] using h.frame x hx

/-! Reads of bytes that a command may read give the same in both runs. -/

theorem readBytes_eq (h : Alike s s' u u') {a n : Nat} (hin : ∀ k < n, Readable s (a + k)) :
    u'.mem.readBytes a n = u.mem.readBytes a n := by
  induction n generalizing a with
  | zero => rfl
  | succ n ih =>
    rw [Memory.readBytes, Memory.readBytes, h.readable a (hin 0 (by omega)), ih fun k hk => ?_]
    rw [Nat.add_assoc, Nat.add_comm 1]
    exact hin (k + 1) (by omega)

section
variable (h : Alike s s' u u') (hb : u.build = s.build) (hc : u.cfg = s.cfg)
include h hb hc

theorem readSymRow_eq {r : Region} {row : Nat} (hrow : row < bankRows s.build r) :
    u'.readSymRow r row = u.readSymRow r row := by
  obtain ⟨m, c, rfl⟩ := h.banks
  refine h.readBytes_eq fun k hk => ?_
  rw [State.setBanks, hb]
  exact (symRow_writable hrow (by rwa [State.symLen, ← hc])).readable

theorem readSymRows_eq {r : Region} {rows : List Nat} (hrows : ∀ row ∈ rows, row < bankRows s.build r) :
    u'.readSymRows r rows = u.readSymRows r rows := by
  induction rows with
  | nil => rfl
  | cons row rows ih =>
    rw [State.readSymRows, State.readSymRows, h.readSymRow_eq hb hc (hrows row List.mem_cons_self),
      ih fun x hx => hrows x (List.mem_cons_of_mem _ hx)]

theorem readMatrix_eq {row n : Nat} (hrows : row + n ≤ s.build.mMax) : u'.readMatrix row n = u.readMatrix row n := by
  induction n generalizing row with
  | zero => rfl
  | succ n ih =>
    have hfirst : u'.mem.readBytes (matRow u'.build .matA row) u'.cfg.l.toNat =
        u.mem.readBytes (matRow u.build .matA row) u.cfg.l.toNat := by
      obtain ⟨m, c, rfl⟩ := h.banks
      refine h.readBytes_eq fun k hk => ?_
      rw [State.setBanks, hb]
      exact (matRow_writable (by omega) (by rwa [← hc])).readable
    rw [State.readMatrix, State.readMatrix, hfirst, ih (by omega)]

theorem xorRowsC_eq {ns : List Nat} (hns : ∀ n ∈ ns, n < s.build.lMax) (acc : Symbol) :
    u'.xorRowsC ns acc = u.xorRowsC ns acc := by
  induction ns generalizing acc with
  | nil => rfl
  | cons n ns ih =>
    rw [State.xorRowsC, State.xorRowsC, h.readSymRow_eq hb hc (r := .symC) (hns n List.mem_cons_self)]
    split
    · rfl
    · exact ih (fun x hx => hns x (List.mem_cons_of_mem _ hx)) _

theorem enc_eq (hs : MachineOk s) (hv : s.status.cfgValid = true) (x : Nat) : u'.enc x = u.enc x := by
  have hindex : ∀ n ∈ indicesOf u.build u.cfg x, n < s.build.lMax := by
    rw [hc]
    exact fun n hn => (lt_of_mem_indicesOf (hs.walkFits hv) hn).trans_le (hs.blockFits hv).l
  have hrows := h.xorRowsC_eq hb hc hindex (zeroBytes u.symLen)
  obtain ⟨m, c, rfl⟩ := h.banks
  exact hrows

theorem recover_eq (hs : MachineOk s) (hv : s.status.cfgValid = true) (es : List Nat) : u'.recover es = u.recover es := by
  induction es with
  | nil => rfl
  | cons e es ih => rw [State.recover, State.recover, h.enc_eq hb hc hs hv, ih]

end

theorem readEsis_eq (h : Alike s s' u u') {q n : Nat} (hq : q + n ≤ s.build.rxMax) : u'.readEsis q n = u.readEsis q n := by
  induction n generalizing q with
  | zero => rfl
  | succ n ih =>
    have hword : u'.mem.readWord (wordAt .rxEsi q) = u.mem.readWord (wordAt .rxEsi q) :=
      congrArg (Option.map natOfBytes) (h.readBytes_eq fun k hk => wordAt_rxEsi_readable (by omega) hk)
    rw [State.readEsis, State.readEsis, hword, ih (by omega)]

/-! Stores of rows of the block. -/

theorem writeSymRows (h : Alike s s' u u') (hb : u.build = s.build) {r : Region} {l : List (Nat × Symbol)}
    (hl : ∀ q ∈ l, q.1 < bankRows s.build r ∧ q.2.length ≤ s.symLen) :
    Alike s s' (u.writeSymRows r l) (u'.writeSymRows r l) := by
  induction l generalizing u u' with
  | nil => exact h
  | cons q l ih =>
    obtain ⟨hrow, hlen⟩ := hl q List.mem_cons_self
    have hstore := h.writeBytes (a := symRow u.build r q.1) (v := q.2) fun k hk => by
      rw [hb]
      exact symRow_writable hrow (hk.trans_le hlen)
    obtain ⟨m, c, rfl⟩ := h.banks
    exact ih hstore hb fun p hp => hl p (List.mem_cons_of_mem _ hp)

theorem writeMatrix (h : Alike s s' u u') (hb : u.build = s.build) {row : Nat} {l : List Row}
    (hrows : row + l.length ≤ s.build.mMax) (hl : ∀ v ∈ l, v.length = s.cfg.l.toNat) :
    Alike s s' (u.writeMatrix row l) (u'.writeMatrix row l) := by
  induction l generalizing u u' row with
  | nil => exact h
  | cons v l ih =>
    rw [List.length_cons] at hrows
    have hstore := h.writeBytes (a := matRow u.build .matA row) (v := v) fun k hk => by
      rw [hb]
      exact matRow_writable (by omega) (hl v List.mem_cons_self ▸ hk)
    obtain ⟨m, c, rfl⟩ := h.banks
    exact ih hstore hb (by omega) fun w hw => hl w (List.mem_cons_of_mem _ hw)

end Alike

/-! ### Two runs that begin alike -/

/-- Two sound states that agree on the registers and on every byte that a command may read (R67). -/
structure BeginAlike (s s' : State) : Prop where
  sound : MachineOk s
  sound' : MachineOk s'
  alike : Alike s s' s s'

theorem BeginAlike.refl {s : State} (hs : MachineOk s) : BeginAlike s s :=
  ⟨hs, hs, rfl, fun _ _ => rfl, fun _ _ => ⟨rfl, rfl⟩, fun _ h => absurd rfl h⟩

/-- Both runs stop at a location without value, or both go on and stay alike. -/
inductive EndAlike (s s' : State) : Out → Out → Prop where
  | fault : EndAlike s s' (.fault .noValue) (.fault .noValue)
  | next {t t' : State} (h : Alike s s' t t') : EndAlike s s' (.next t) (.next t')

section
variable {s s' u u' : State}

theorem Alike.finish (h : Alike s s' u u') : EndAlike s s' (finish u) (finish u') :=
  .next (h.update (f := State.complete) fun _ _ _ => rfl)

theorem Alike.failWith (h : Alike s s' u u') (c : FailCode) : EndAlike s s' (failWith u c) (failWith u' c) :=
  .next (h.update (f := (State.raiseFail · c)) fun _ _ _ => rfl)

theorem Alike.setCValid (h : Alike s s' u u') (v : Bool) : Alike s s' (u.setCValid v) (u'.setCValid v) :=
  h.update (f := (State.setCValid · v)) fun _ _ _ => rfl

theorem Alike.setMRows (h : Alike s s' u u') (n : Nat) : Alike s s' (u.setMRows n) (u'.setMRows n) :=
  h.update (f := (State.setMRows · n)) fun _ _ _ => rfl

theorem Alike.setRes (h : Alike s s' u u') (n : Fin 8) (v : Word) : Alike s s' (u.setRes n v) (u'.setRes n v) :=
  h.update (f := (State.setRes · n v)) fun _ _ _ => rfl

/-- A branch on what both runs see alike. -/
theorem EndAlike.ite {p p' : Prop} [Decidable p] [Decidable p'] (hp : p' ↔ p) {x x' y y' : Out} (hx : p → EndAlike s s' x x')
    (hy : ¬p → EndAlike s s' y y') : EndAlike s s' (if p then x else y) (if p' then x' else y') := by
  by_cases h : p
  · rw [if_pos h, if_pos (hp.2 h)]
    exact hx h
  · rw [if_neg h, if_neg (mt hp.1 h)]
    exact hy h

/-- A read that gives the same in both runs. -/
theorem EndAlike.orNoValue {α : Type} {o o' : Option α} (ho : o' = o) {k k' : α → Out}
    (hk : ∀ v, o = some v → EndAlike s s' (k v) (k' v)) : EndAlike s s' (orNoValue o k) (orNoValue o' k') := by
  subst ho
  cases o' with
  | none => exact .fault
  | some v => exact hk v rfl

theorem BeginAlike.needConfig (h : BeginAlike s s') {k k' : Out} (hk : s.status.cfgValid = true → EndAlike s s' k k') :
    EndAlike s s' (needConfig s k) (needConfig s' k') := by
  refine .ite ?_ hk fun _ => h.alike.failWith _
  rw [h.alike.regs]
  exact Iff.rfl

/-- A solve forgets the same scratch in both runs. -/
theorem BeginAlike.clearScratch (h : BeginAlike s s') (hv : s.status.cfgValid = true) (hu : Alike s s' u u')
    (hb : u.build = s.build) (hc : u.cfg = s.cfg) {n : Nat} (hn : n ≤ s.build.mMax) :
    Alike s s' (u.clearScratch n) (u'.clearScratch n) := by
  obtain ⟨m, c, rfl⟩ := hu.banks
  obtain ⟨m0, c0, rfl⟩ := h.alike.banks
  have hfits := h.sound.blockFits hv
  have hscratch {a : Nat} (ha : u.inScratch n a = true) : Scratch s n a := by
    rw [← State.inScratch_iff hfits]
    rwa [State.inScratch, State.symLen, hb, hc] at ha
  refine ⟨rfl, fun a ha => ?_, fun a ha => ?_, fun a ha => ?_⟩
  · show (m.clear (u.inScratch n)).read a = (u.mem.clear (u.inScratch n)).read a
    rw [Memory.read_clear, Memory.read_clear, ← hu.readable a ha]
    rfl
  · show (u.mem.clear (u.inScratch n)).read a = s.mem.read a ∧ (m.clear (u.inScratch n)).read a = m0.read a
    rw [Memory.read_clear, Memory.read_clear]
    split
    · rename_i hin
      obtain ⟨r, hr, hholds⟩ := (writable_or_coreOnly_of_scratch hfits hn (hscratch hin)).resolve_left ha
      exact ⟨(h.sound.read_eq_none hr hholds).symm, (h.sound'.read_eq_none hr hholds).symm⟩
    · exact hu.frame a ha
  · rw [State.clearScratch_hostCopy, Memory.read_clear] at ha ⊢
    split at ha
    · rename_i hin
      exact ⟨scratch_mono hn (hscratch hin), if_pos hin⟩
    · rename_i hin
      rw [if_neg hin]
      exact hu.copy a ha

theorem BeginAlike.endSolve (h : BeginAlike s s') (hv : s.status.cfgValid = true) (hu : Alike s s' u u')
    (hb : u.build = s.build) (hc : u.cfg = s.cfg) {n : Nat} (hn : n ≤ s.build.mMax) {out : List (Nat × Symbol)}
    (hout : ∀ q ∈ out, q.1 < s.cfg.l.toNat ∧ q.2.length ≤ s.symLen) :
    Alike s s' (u.endSolve n out) (u'.endSolve n out) := by
  refine ((h.clearScratch hv hu hb hc hn).writeSymRows hb fun q hq => ?_).setCValid true
  exact ⟨(hout q hq).1.trans_le (h.sound.blockFits hv).l, (hout q hq).2⟩

/-- A solve of the same system in both runs: it fails in both, or both go on with the same solution. -/
theorem BeginAlike.solveThen (h : BeginAlike s s') (hv : s.status.cfgValid = true) (hu : Alike s s' u u')
    (hb : u.build = s.build) (hc : u.cfg = s.cfg) {n : Nat} (hn : n ≤ s.build.mMax) {a : List Row} {d : List Symbol}
    (hd : ∀ v ∈ d, v.length ≤ s.symLen) {k k' : State → Out}
    (hk : ∀ out, Alike s s' (u.endSolve n out) (u'.endSolve n out) →
      EndAlike s s' (k (u.endSolve n out)) (k' (u'.endSolve n out))) :
    EndAlike s s' (solveThen u n a d k) (solveThen u' n a d k') := by
  have hdims : u.solveDims = s.solveDims := by rw [State.solveDims, State.symLen, hc]; rfl
  have hsame : solve u'.build u'.solveDims a d = solve u.build u.solveDims a d := by
    obtain ⟨m, c, rfl⟩ := hu.banks
    rfl
  rw [Machine.solveThen, Machine.solveThen, hsame]
  cases hsol : solve u.build u.solveDims a d with
  | error c => exact (h.clearScratch hv hu hb hc hn).failWith c
  | ok out =>
    rw [hdims] at hsol
    exact hk out (h.endSolve hv hu hb hc hn (solve_bounds (m := s.solveDims) hd hsol))

end

/-! ### The received symbols are rows of SYM_RX (45_block_codec.md R280) -/

theorem State.length_readEsis {s : State} {q n : Nat} {esis : List Nat} (h : s.readEsis q n = some esis) :
    esis.length = n := by
  induction n generalizing q esis with
  | zero => cases h; rfl
  | succ n ih =>
    rw [State.readEsis] at h
    split at h
    · cases h
    · obtain ⟨rest, hrest, rfl⟩ := Option.map_eq_some_iff.1 h
      rw [List.length_cons, ih hrest]

theorem snd_lt_of_mem_presentRows {k : Nat} {esis : List Nat} {q : Nat × Nat} (h : q ∈ presentRows k esis) :
    q.2 < esis.length := by
  obtain ⟨e, _, hq⟩ := List.mem_filterMap.1 h
  obtain ⟨p, hp, rfl⟩ := Option.map_eq_some_iff.1 hq
  exact (List.findIdx?_eq_some_iff_getElem.1 hp).1

theorem lt_of_mem_repairsOf {k : Nat} {esis : List Nat} {q : Nat} (h : q ∈ repairsOf k esis) : q < esis.length :=
  List.mem_range.1 (List.mem_of_mem_filter h)

theorem length_repairsOf_le (k : Nat) (esis : List Nat) : (repairsOf k esis).length ≤ esis.length :=
  (List.length_filter_le _ _).trans_eq List.length_range

/-! ### Each command ends alike in states that begin alike -/

section
variable {s s' : State} (h : BeginAlike s s')
include h

/-- The operand checks of the vector commands read registers only (40_gf256.md R120). -/
theorem BeginAlike.dstOperand_eq (db : BankCode) : dstOperand db s' = dstOperand db s := by
  rw [h.alike.regs]
  rfl

theorem BeginAlike.dstSrcOperands_eq (db sb : BankCode) : dstSrcOperands db sb s' = dstSrcOperands db sb s := by
  rw [h.alike.regs]
  rfl

theorem BeginAlike.arg_eq (n : Fin 8) : s'.arg n = s.arg n := by
  rw [h.alike.regs]
  rfl

theorem BeginAlike.build_eq : s'.build = s.build := by
  rw [h.alike.regs]
  rfl

theorem BeginAlike.cfg_eq : s'.cfg = s.cfg := by
  rw [h.alike.regs]
  rfl

theorem BeginAlike.status_eq : s'.status = s.status := by
  rw [h.alike.regs]
  rfl

theorem BeginAlike.symLen_eq : s'.symLen = s.symLen := by
  rw [State.symLen, h.cfg_eq, State.symLen]

/-- A symbol of at most T bytes stored in a row of a symbol bank. -/
theorem BeginAlike.finish_writeSymRow {r : Region} {row : Nat} {v : Symbol} (hrow : row < bankRows s.build r)
    (hlen : v.length ≤ s.symLen) :
    EndAlike s s' (finish (s.writeSymRow r row v)) (finish (s'.writeSymRow r row v)) := by
  refine (h.alike.writeSymRows rfl (l := [(row, v)]) fun q hq => ?_).finish
  obtain rfl := List.mem_singleton.1 hq
  exact ⟨hrow, hlen⟩

/-- The shape of the scalar and table commands with one result. -/
theorem BeginAlike.res0 {p p' : Prop} [Decidable p] [Decidable p'] (hp : p' ↔ p) (c : FailCode) {v v' : Word}
    (hv : v' = v) : EndAlike s s' (if p then failWith s c else finish (s.setRes 0 v))
      (if p' then failWith s' c else finish (s'.setRes 0 v')) :=
  .ite hp (fun _ => h.alike.failWith c) fun _ => hv ▸ (h.alike.setRes 0 v).finish

theorem BeginAlike.res4 (a b c d : Nat) : EndAlike s s' (finish (s.setRes4 a b c d)) (finish (s'.setRes4 a b c d)) :=
  ((((h.alike.setRes 0 _).setRes 1 _).setRes 2 _).setRes 3 _).finish

theorem execSitCeil_endAlike : EndAlike s s' (execSitCeil s) (execSitCeil s') := by
  unfold execSitCeil
  simp only [h.arg_eq, h.build_eq]
  refine .ite Iff.rfl (fun _ => h.alike.failWith _) fun _ => ?_
  cases sitCeil s.build.sit (s.arg 0) with
  | none => exact h.alike.failWith _
  | some kp => exact (h.alike.setRes 0 _).finish

theorem execSitLookup_endAlike : EndAlike s s' (execSitLookup s) (execSitLookup s') := by
  unfold execSitLookup
  rw [h.arg_eq, h.build_eq]
  cases sitLookup s.build.sit (s.arg 0) with
  | none => exact h.alike.failWith _
  | some r => exact h.res4 _ _ _ _

theorem execPartition_endAlike : EndAlike s s' (execPartition s) (execPartition s') := by
  unfold execPartition
  simp only [h.arg_eq]
  refine .ite Iff.rfl (fun _ => h.alike.failWith _) fun _ => ?_
  obtain ⟨is, il, js, jl⟩ := partitionOf (s.arg 0) (s.arg 1)
  exact h.res4 is il js jl

theorem execBlkConfig_endAlike : EndAlike s s' (execBlkConfig s) (execBlkConfig s') := by
  unfold execBlkConfig
  simp only [h.arg_eq, h.build_eq]
  have hclear : Alike s s' ((s.setCfgValid false).setCValid false) ((s'.setCfgValid false).setCValid false) :=
    h.alike.update (f := fun u => (u.setCfgValid false).setCValid false) fun _ _ _ => rfl
  cases configRow s.build (s.arg 0) (s.arg 1) with
  | none => exact hclear.failWith _
  | some r =>
    exact (hclear.update (f := fun u => State.setCfgValid { u with cfg := blockParamsOf (s.arg 0) (s.arg 1) r } true)
      fun _ _ _ => rfl).finish

theorem execTuple_endAlike : EndAlike s s' (execTuple s) (execTuple s') := by
  refine h.needConfig fun _ => ?_
  rw [h.arg_eq, h.build_eq, h.cfg_eq]
  exact ((((((h.alike.setRes 0 _).setRes 1 _).setRes 2 _).setRes 3 _).setRes 4 _).setRes 5 _).finish

theorem execBuildA_endAlike : EndAlike s s' (execBuildA s) (execBuildA s') := by
  refine h.needConfig fun hv => ?_
  have hfits := h.sound.blockFits hv
  rw [h.build_eq, h.cfg_eq]
  refine ((h.alike.writeMatrix rfl ?_ fun _ => length_of_mem_constraintMatrix).setMRows _).finish
  rw [length_constraintMatrix, hfits.rows, Nat.zero_add]
  exact hfits.l.trans (Nat.le_add_right _ _)

theorem execRowPattern_endAlike : EndAlike s s' (execRowPattern s) (execRowPattern s') := by
  refine h.needConfig fun _ => ?_
  simp only [h.arg_eq, h.build_eq, h.cfg_eq]
  refine .ite Iff.rfl (fun _ => h.alike.failWith _) fun hrow => (h.alike.writeMatrix rfl ?_ fun v hv => ?_).finish
  · exact Nat.lt_of_not_le hrow
  · rw [List.mem_singleton.1 hv, length_patternOf]

/-! The vector commands (40_gf256.md R120 to R125). -/

theorem BeginAlike.readSymbol_eq {r : Region} {row : Nat} (hrow : row < bankRows s.build r) :
    s'.readSymbol (symRow s.build r row) = s.readSymbol (symRow s.build r row) := by
  have hread := h.alike.readSymRow_eq rfl rfl hrow
  rwa [State.readSymRow, State.readSymRow, h.build_eq] at hread

theorem BeginAlike.finish_writeSymbol {r : Region} {row : Nat} {v : Symbol} (hrow : row < bankRows s.build r)
    (hlen : v.length ≤ s.symLen) :
    EndAlike s s' (finish (s.writeSymbol (symRow s.build r row) v)) (finish (s'.writeSymbol (symRow s.build r row) v)) := by
  have hend := h.finish_writeSymRow hrow hlen
  rwa [State.writeSymRow, State.writeSymRow, h.build_eq] at hend

theorem execVxor_endAlike (db sb : BankCode) : EndAlike s s' (execVxor db sb s) (execVxor db sb s') := by
  unfold execVxor
  rw [h.dstSrcOperands_eq]
  split
  · exact h.alike.failWith _
  · rename_i hop
    obtain ⟨rd, rs, _, _, _, hd, hs, rfl, rfl⟩ := dstSrcOperands_ok hop
    refine .orNoValue (h.readSymbol_eq hd) fun x hx => .orNoValue (h.readSymbol_eq hs) fun y _ => ?_
    exact h.finish_writeSymbol hd ((length_xorBytes_le x y).trans_eq (State.length_readSymbol hx))

theorem execVaxpy_endAlike (db sb : BankCode) (beta : Byte) :
    EndAlike s s' (execVaxpy db sb beta s) (execVaxpy db sb beta s') := by
  unfold execVaxpy
  rw [h.dstSrcOperands_eq, h.build_eq]
  split
  · exact h.alike.failWith _
  · rename_i hop
    obtain ⟨rd, rs, _, _, _, hd, hs, rfl, rfl⟩ := dstSrcOperands_ok hop
    refine .orNoValue (h.readSymbol_eq hd) fun x hx => .orNoValue (h.readSymbol_eq hs) fun y _ => ?_
    exact h.finish_writeSymbol hd ((length_axpyBytes_le s.build x beta y).trans_eq (State.length_readSymbol hx))

theorem execVcopy_endAlike (db sb : BankCode) : EndAlike s s' (execVcopy db sb s) (execVcopy db sb s') := by
  unfold execVcopy
  rw [h.dstSrcOperands_eq]
  split
  · exact h.alike.failWith _
  · rename_i hop
    obtain ⟨rd, rs, _, _, _, hd, hs, rfl, rfl⟩ := dstSrcOperands_ok hop
    refine .orNoValue (h.readSymbol_eq hs) fun y hy => ?_
    exact h.finish_writeSymbol hd (State.length_readSymbol hy).le

theorem execVscale_endAlike (db : BankCode) (beta : Byte) :
    EndAlike s s' (execVscale db beta s) (execVscale db beta s') := by
  unfold execVscale
  rw [h.dstOperand_eq, h.build_eq]
  split
  · exact h.alike.failWith _
  · rename_i hop
    obtain ⟨rd, _, _, hd, rfl⟩ := dstOperand_ok hop
    refine .orNoValue (h.readSymbol_eq hd) fun x hx => ?_
    exact h.finish_writeSymbol hd (by simpa [scaleBytes] using (State.length_readSymbol hx).le)

theorem execVzero_endAlike (db : BankCode) : EndAlike s s' (execVzero db s) (execVzero db s') := by
  unfold execVzero
  rw [h.dstOperand_eq, h.symLen_eq]
  split
  · exact h.alike.failWith _
  · rename_i hop
    obtain ⟨rd, _, _, hd, rfl⟩ := dstOperand_ok hop
    exact h.finish_writeSymbol hd (length_zeroBytes _).le

/-! The commands that encode a symbol (43_lt_encoder.md R211, 45_block_codec.md R276). -/

/-- SYM_OUT holds one row (20_memory.md R60, 40_gf256.md R120). -/
theorem BeginAlike.finish_symOut {v : Symbol} (hlen : v.length ≤ s.symLen) :
    EndAlike s s' (finish (s.writeSymRow .symOut 0 v)) (finish (s'.writeSymRow .symOut 0 v)) :=
  h.finish_writeSymRow Nat.one_pos hlen

theorem execLtEnc_endAlike : EndAlike s s' (execLtEnc s) (execLtEnc s') := by
  refine h.needConfig fun hv => ?_
  simp only [h.arg_eq, h.status_eq]
  refine .ite Iff.rfl (fun _ => ?_) fun _ => h.alike.failWith _
  exact .orNoValue (h.alike.enc_eq rfl rfl h.sound hv _) fun v hx => h.finish_symOut (State.length_enc_le hx)

theorem execBlkSymbol_endAlike : EndAlike s s' (execBlkSymbol s) (execBlkSymbol s') := by
  refine h.needConfig fun hv => ?_
  simp only [h.arg_eq, h.status_eq, h.cfg_eq]
  refine .ite Iff.rfl (fun _ => h.alike.failWith _) fun _ => .ite Iff.rfl (fun hk => ?_) fun _ =>
    .ite Iff.rfl (fun _ => ?_) fun _ => h.alike.failWith _
  · refine .orNoValue (h.alike.readSymRow_eq rfl rfl (r := .symSrc) (hk.trans_le (h.sound.blockFits hv).k)) fun v hx => ?_
    exact h.finish_symOut (State.length_readSymbol hx).le
  · exact .orNoValue (h.alike.enc_eq rfl rfl h.sound hv _) fun v hx => h.finish_symOut (State.length_enc_le hx)

/-! The commands that solve a system (44_pi_solver.md R240, 45_block_codec.md R274, R280). -/

theorem BeginAlike.beginSolve (n : Nat) : Alike s s' (s.beginSolve n) (s'.beginSolve n) :=
  (h.alike.setCValid false).setMRows n

theorem execPiSolve_endAlike : EndAlike s s' (execPiSolve s) (execPiSolve s') := by
  refine h.needConfig fun hv => ?_
  simp only [h.arg_eq, h.build_eq, h.cfg_eq]
  refine .ite Iff.rfl (fun _ => h.alike.failWith _) fun hrange => ?_
  have hn : s.arg 0 ≤ s.build.mMax := Nat.le_of_not_lt fun hlt => hrange (.inr hlt)
  refine .orNoValue (h.alike.readMatrix_eq rfl rfl (by omega)) fun a _ =>
    .orNoValue (h.alike.readSymRows_eq rfl rfl fun row hrow => ?_) fun d hd => ?_
  · exact (List.mem_range.1 hrow).trans_le hn
  · exact h.solveThen hv (h.beginSolve _) rfl rfl hn (fun v hvd => ((State.readSymRows_some hd).2 v hvd).le)
      fun out hend => hend.finish

theorem execBlkEncode_endAlike : EndAlike s s' (execBlkEncode s) (execBlkEncode s') := by
  refine h.needConfig fun hv => ?_
  have hfits := h.sound.blockFits hv
  simp only [h.build_eq, h.cfg_eq]
  refine .orNoValue (h.alike.readSymRows_eq rfl rfl fun row hrow => (List.mem_range.1 hrow).trans_le hfits.k)
    fun src hsrc => ?_
  exact h.solveThen hv (h.beginSolve _) rfl rfl (hfits.l.trans (Nat.le_add_right _ _))
    (length_encodeRhs_le (State.readSymRows_some hsrc).2) fun out hend => hend.finish

theorem decodeFull_endAlike (hv : s.status.cfgValid = true) {esis missing repairs : List Nat}
    {present : List (Nat × Symbol)} {rep : List Symbol} (hmissing : ∀ e ∈ missing, e < s.cfg.k.toNat)
    (hpresent : ∀ q ∈ present, q.1 < s.cfg.k.toNat ∧ q.2.length = s.symLen) (hrep : ∀ v ∈ rep, v.length = s.symLen)
    (hcount : repairs.length ≤ s.build.rxMax) :
    EndAlike s s' (decodeFull (s.setCValid false) esis missing repairs present rep)
      (decodeFull (s'.setCValid false) esis missing repairs present rep) := by
  have hfits := h.sound.blockFits hv
  unfold decodeFull
  simp only [State.setCValid_cfg, State.setCValid_build, h.build_eq, h.cfg_eq]
  refine h.solveThen hv (h.beginSolve _) rfl rfl (Nat.add_le_add hfits.l ((Nat.sub_le _ _).trans hcount))
    (length_decodeRhs_le (fun q hq => (hpresent q hq).2) hrep) fun out hend => ?_
  refine .orNoValue (hend.recover_eq (by simp) (by simp) h.sound hv missing) fun found hfound => ?_
  have hrecovered := hend.writeSymRows (by simp) (r := .symSrc) (l := found) fun q hq => by
    obtain ⟨hmem, hlen⟩ := State.recover_bounds hfound q hq
    exact ⟨(hmissing q.1 hmem).trans_le hfits.k, hlen.trans_eq (State.symLen_endSolve s _ out)⟩
  have hstored := hrecovered.writeSymRows (by simp) (r := .symSrc) (l := present) fun q hq =>
    ⟨(hpresent q hq).1.trans_le hfits.k, (hpresent q hq).2.le⟩
  exact ((hstored.setRes 0 _).setRes 1 _).finish

theorem execBlkDecode_endAlike : EndAlike s s' (execBlkDecode s) (execBlkDecode s') := by
  refine h.needConfig fun hv => ?_
  have hfits := h.sound.blockFits hv
  simp only [h.arg_eq, h.build_eq, h.cfg_eq]
  refine .ite Iff.rfl (fun _ => h.alike.failWith _) fun hn => ?_
  have hn : s.arg 0 ≤ s.build.rxMax := Nat.le_of_not_lt hn
  refine .orNoValue (h.alike.readEsis_eq (by omega)) fun esis hesis => ?_
  have hlen := State.length_readEsis hesis
  have hslots : ∀ row ∈ (presentRows s.cfg.k.toNat esis).map (·.2), row < bankRows s.build .symRx := by
    intro row hrow
    obtain ⟨q, hq, rfl⟩ := List.mem_map.1 hrow
    exact (snd_lt_of_mem_presentRows hq).trans_le (hlen.trans_le hn)
  have hpresent {rx : List Symbol} (hrx : s.readSymRows .symRx ((presentRows s.cfg.k.toNat esis).map (·.2)) = some rx) :
      ∀ q ∈ ((presentRows s.cfg.k.toNat esis).map (·.1)).zip rx, q.1 < s.cfg.k.toNat ∧ q.2.length = s.symLen := by
    intro q hq
    obtain ⟨hfst, hsnd⟩ := List.of_mem_zip hq
    obtain ⟨p, hp, hpq⟩ := List.mem_map.1 hfst
    exact ⟨hpq ▸ fst_lt_of_mem_presentRows hp, (State.readSymRows_some hrx).2 q.2 hsnd⟩
  refine .ite Iff.rfl (fun _ => h.alike.failWith _) fun _ => .ite Iff.rfl (fun _ => ?_) fun _ =>
    .ite Iff.rfl (fun _ => (h.alike.setCValid false).failWith _) fun _ => ?_
  · refine .orNoValue (h.alike.readSymRows_eq rfl rfl hslots) fun rx hrx => ?_
    have hstored := (h.alike.setCValid false).writeSymRows rfl (r := .symSrc) fun q hq =>
      ⟨(hpresent hrx q hq).1.trans_le hfits.k, (hpresent hrx q hq).2.le⟩
    exact ((hstored.setRes 0 _).setRes 1 _).finish
  · refine .orNoValue (h.alike.readSymRows_eq rfl rfl hslots) fun rx hrx =>
      .orNoValue (h.alike.readSymRows_eq rfl rfl fun q hq => ?_) fun rep hrep => ?_
    · exact (lt_of_mem_repairsOf hq).trans_le (hlen.trans_le hn)
    · exact decodeFull_endAlike h hv (fun _ => lt_of_mem_missingOf) (hpresent hrx) (State.readSymRows_some hrep).2
        ((length_repairsOf_le _ _).trans (hlen.trans_le hn))

/-- Every command ends alike in states that begin alike. -/
theorem exec_endAlike (i : Instr) : EndAlike s s' (exec i s) (exec i s') := by
  cases i with
  | nop => exact h.alike.finish
  | gfAdd u v | gfSub u v => exact (h.alike.setRes 0 _).finish
  | gfMul u v =>
    rw [exec, exec, execGfMul, execGfMul, h.build_eq]
    exact (h.alike.setRes 0 _).finish
  | gfDiv u v | gfExp idx | gfLog x => exact h.res0 Iff.rfl _ (by rw [h.build_eq])
  | rand | deg => exact h.res0 (by simp only [h.arg_eq]) _ (by simp only [h.arg_eq, h.build_eq])
  | vxor db sb => exact execVxor_endAlike h db sb
  | vscale db beta => exact execVscale_endAlike h db beta
  | vaxpy db sb beta => exact execVaxpy_endAlike h db sb beta
  | vcopy db sb => exact execVcopy_endAlike h db sb
  | vzero db => exact execVzero_endAlike h db
  | sitCeil => exact execSitCeil_endAlike h
  | sitLookup => exact execSitLookup_endAlike h
  | partition => exact execPartition_endAlike h
  | blkConfig => exact execBlkConfig_endAlike h
  | tuple => exact execTuple_endAlike h
  | buildA => exact execBuildA_endAlike h
  | rowPattern => exact execRowPattern_endAlike h
  | ltEnc => exact execLtEnc_endAlike h
  | piSolve => exact execPiSolve_endAlike h
  | blkEncode => exact execBlkEncode_endAlike h
  | blkSymbol => exact execBlkSymbol_endAlike h
  | blkDecode => exact execBlkDecode_endAlike h

end

/-- Settles O21: a command run twice from the same state ends alike, which says what it may write. -/
theorem commandsWriteInsideTheBlock : Obligations.CommandsWriteInsideTheBlock := by
  unfold Obligations.CommandsWriteInsideTheBlock
  intro i s t a hs h
  have hend := exec_endAlike (.refl hs) i
  obtain ⟨_, _, _, _, _, _, _, _, hcopy, _⟩ := commandFrame i s t h
  rw [h] at hend
  obtain _ | halike := hend
  refine ⟨fun hne => not_not.1 fun hout => hne (halike.frame a hout).1, fun hne => ⟨?_, halike.copy a hne⟩⟩
  refine not_not.1 fun hi => hne ?_
  simp only [not_or] at hi
  rw [hcopy hi.1 hi.2.1 hi.2.2]

/-- Settles O22: the hypotheses say that the two states begin alike. -/
theorem commandsReadInsideTheBlock : Obligations.CommandsReadInsideTheBlock := by
  unfold Obligations.CommandsReadInsideTheBlock
  intro i s s' hs hs' hregs hbytes
  have hbegin : BeginAlike s s' := ⟨hs, hs', hregs, hbytes, fun _ _ => ⟨rfl, rfl⟩, fun _ hne => absurd rfl hne⟩
  have hend := exec_endAlike hbegin i
  generalize exec i s = o at hend
  generalize exec i s' = o' at hend
  cases hend with
  | fault => exact .inl ⟨rfl, rfl⟩
  | next h =>
    exact .inr ⟨_, _, rfl, rfl, h.regs, fun a => ⟨h.readable a, fun hout =>
      (h.frame a (mt Writable.readable hout)).2⟩⟩

end Sys2Proof.Machine
end

section
/-! PROOFS. The decoder and the encoder of command words: the fields of a word, decoding and encoding as inverses of each other,
and the opcode map at the core's turn (spec/30_encoding.md R80 to R88). -/

namespace Sys2Proof.Machine
open Sys2Proof.Claims

/-! ### The fields of a written word -/

section
variable (opc u v beta : Byte) (db sb : BankCode) (idx : BitVec 9)

@[simp] theorem fieldTop_wordS2 : fieldTop (wordS2 opc u v) = 0#8 :=
  (BitVec.extractLsb'_append_eq_of_le (by decide)).trans <|
    (BitVec.extractLsb'_append_eq_of_le (by decide)).trans BitVec.extractLsb'_append_eq_left

@[simp] theorem fieldFb_wordS2 : fieldFb (wordS2 opc u v) = v :=
  (BitVec.extractLsb'_append_eq_of_le (by decide)).trans <|
    (BitVec.extractLsb'_append_eq_of_le (by decide)).trans BitVec.extractLsb'_append_eq_right

@[simp] theorem fieldFa_wordS2 : fieldFa (wordS2 opc u v) = u :=
  (BitVec.extractLsb'_append_eq_of_le (by decide)).trans BitVec.extractLsb'_append_eq_right

@[simp] theorem extractLsb'_encode_gfExp : (encode (.gfExp idx)).extractLsb' 17 15 = 0#15 :=
  (BitVec.extractLsb'_append_eq_of_le (by decide)).trans BitVec.extractLsb'_append_eq_left

@[simp] theorem fieldIdx_encode_gfExp : fieldIdx (encode (.gfExp idx)) = idx :=
  (BitVec.extractLsb'_append_eq_of_le (by decide)).trans BitVec.extractLsb'_append_eq_right

@[simp] theorem extractLsb'_encode_gfLog : (encode (.gfLog u)).extractLsb' 16 16 = 0#16 :=
  (BitVec.extractLsb'_append_eq_of_le (by decide)).trans BitVec.extractLsb'_append_eq_left

@[simp] theorem fieldFa_encode_gfLog : fieldFa (encode (.gfLog u)) = u :=
  (BitVec.extractLsb'_append_eq_of_le (by decide)).trans BitVec.extractLsb'_append_eq_right

/-- The bits of a format V word from CMD[12] on. -/
theorem extractLsb'_wordV {lo n : Nat} (hlo : 12 ≤ lo) :
    (wordV opc db sb beta).extractLsb' lo n = (0#8 ++ beta ++ sb).extractLsb' (lo - 8 - 4) n :=
  (BitVec.extractLsb'_append_eq_of_le (by omega)).trans (BitVec.extractLsb'_append_eq_of_le (by omega))

@[simp] theorem fieldTop_wordV : fieldTop (wordV opc db sb beta) = 0#8 :=
  (extractLsb'_wordV opc beta db sb (by decide)).trans <|
    (BitVec.extractLsb'_append_eq_of_le (by decide)).trans BitVec.extractLsb'_append_eq_left

@[simp] theorem fieldBeta_wordV : fieldBeta (wordV opc db sb beta) = beta :=
  (extractLsb'_wordV opc beta db sb (by decide)).trans <|
    (BitVec.extractLsb'_append_eq_of_le (by decide)).trans BitVec.extractLsb'_append_eq_right

@[simp] theorem fieldSb_wordV : fieldSb (wordV opc db sb beta) = sb :=
  (extractLsb'_wordV opc beta db sb (by decide)).trans BitVec.extractLsb'_append_eq_right

@[simp] theorem fieldDb_wordV : fieldDb (wordV opc db sb beta) = db :=
  (BitVec.extractLsb'_append_eq_of_le (by decide)).trans BitVec.extractLsb'_append_eq_right

@[simp] theorem extractLsb'_wordV_noBeta : (wordV opc db sb 0#8).extractLsb' 16 16 = 0#16 :=
  (extractLsb'_wordV opc 0#8 db sb (by decide)).trans BitVec.extractLsb'_append_eq_left

@[simp] theorem extractLsb'_wordV_dbOnly : (wordV opc db 0#4 0#8).extractLsb' 12 20 = 0#20 :=
  (extractLsb'_wordV opc 0#8 db 0#4 (by decide)).trans rfl

end

/-! ### A word from its fields -/

/-- Two neighbouring fields are one longer field. -/
theorem append_extractLsb' (w : Word) (lo m n : Nat) :
    w.extractLsb' (lo + m) n ++ w.extractLsb' lo m = w.extractLsb' lo (n + m) :=
  BitVec.extractLsb'_append_extractLsb'_eq_extractLsb' rfl

section
variable {w : Word} {opc : Byte} (hopc : fieldOpc w = opc)
include hopc

/-- CMD[31:8] and OPC are the whole word. -/
theorem word_of_fieldOpc : w.extractLsb' 8 24 ++ opc = w :=
  hopc ▸ BitVec.extractLsb'_append_extractLsb' (w := 24) (len := 8)

theorem wordN_of_fields (hzero : w.extractLsb' 8 24 = 0#24) : wordN opc = w := by
  rw [wordN, ← hzero]
  exact word_of_fieldOpc hopc

theorem wordS2_of_fields (hzero : fieldTop w = 0#8) : wordS2 opc (fieldFa w) (fieldFb w) = w := by
  rw [wordS2, ← hzero, fieldTop, fieldFb, fieldFa, append_extractLsb' w 16 8 8, append_extractLsb' w 8 8 16]
  exact word_of_fieldOpc hopc

theorem wordS9_of_fields (hzero : w.extractLsb' 17 15 = 0#15) : 0#15 ++ fieldIdx w ++ opc = w := by
  rw [← hzero, fieldIdx, append_extractLsb' w 8 9 15]
  exact word_of_fieldOpc hopc

theorem wordS1_of_fields (hzero : w.extractLsb' 16 16 = 0#16) : 0#16 ++ fieldFa w ++ opc = w := by
  rw [← hzero, fieldFa, append_extractLsb' w 8 8 16]
  exact word_of_fieldOpc hopc

theorem wordV_of_fields (hzero : fieldTop w = 0#8) : wordV opc (fieldDb w) (fieldSb w) (fieldBeta w) = w := by
  rw [wordV, ← hzero, fieldTop, fieldBeta, fieldSb, fieldDb, append_extractLsb' w 16 8 8, append_extractLsb' w 12 4 16,
    append_extractLsb' w 8 4 20]
  exact word_of_fieldOpc hopc

theorem wordV_of_noSb (hzero : fieldTop w = 0#8) (hsb : fieldSb w = 0#4) : wordV opc (fieldDb w) 0#4 (fieldBeta w) = w :=
  hsb ▸ wordV_of_fields hopc hzero

theorem wordV_of_noBeta (hzero : w.extractLsb' 16 16 = 0#16) : wordV opc (fieldDb w) (fieldSb w) 0#8 = w := by
  rw [wordV, BitVec.zero_append_zero, ← hzero, fieldSb, fieldDb, append_extractLsb' w 12 4 16, append_extractLsb' w 8 4 20]
  exact word_of_fieldOpc hopc

theorem wordV_of_dbOnly (hzero : w.extractLsb' 12 20 = 0#20) : wordV opc (fieldDb w) 0#4 0#8 = w := by
  rw [wordV, BitVec.zero_append_zero, BitVec.zero_append_zero, ← hzero, fieldDb, append_extractLsb' w 8 4 20]
  exact word_of_fieldOpc hopc

end
/-! ### Decoding and encoding -/

@[simp] theorem requireZero_zero (n : Nat) (k : Except DecodeError Instr) : requireZero 0#n k = k := if_pos rfl

theorem requireZero_eq_ok {n : Nat} {x : BitVec n} {k : Except DecodeError Instr} {i : Instr} :
    requireZero x k = .ok i ↔ x = 0#n ∧ k = .ok i := by
  unfold requireZero
  split <;> simp [*]

theorem requireBanks_of_wellFormed {i : Instr} (h : i.wellFormed = true) : requireBanks i = .ok i := if_pos h

theorem requireBanks_of_not_wellFormed {i : Instr} (h : i.wellFormed = false) : requireBanks i = .error .reservedBank :=
  if_neg (by simp [h])

theorem eq_of_requireBanks {i j : Instr} (h : requireBanks i = .ok j) : i = j := by
  cases hwf : i.wellFormed with
  | false => cases (requireBanks_of_not_wellFormed hwf).symm.trans h
  | true => exact Except.ok.inj ((requireBanks_of_wellFormed hwf).symm.trans h)

theorem fieldOpc_encode (i : Instr) : fieldOpc (encode i) = i.opcode := by
  cases i <;> exact Laws.fieldOpc_append rfl _ _

/-- Decoding an encoding answers the command itself, after the check of its bank codes. -/
theorem decode_encode (i : Instr) : decode (encode i) = requireBanks i := by
  rw [decode, fieldOpc_encode]
  cases i with
  | gfAdd u v | gfSub u v | gfMul u v | gfDiv u v =>
    simp [Instr.opcode, encode, formatS2, requireBanks, Instr.wellFormed]
  | gfExp idx => simp [Instr.opcode, requireBanks, Instr.wellFormed]
  | gfLog x => simp [Instr.opcode, requireBanks, Instr.wellFormed]
  | vxor db sb | vcopy db sb | vscale db beta | vaxpy db sb beta | vzero db => simp [Instr.opcode, encode]
  | nop | sitCeil | sitLookup | partition | rand | deg | blkConfig | tuple | buildA | rowPattern | ltEnc | piSolve
  | blkEncode | blkSymbol | blkDecode => rfl

/-- Settles O1: the round trip up to the bank check, and that check's two answers. -/
theorem decodeEncodeRoundTrip : Obligations.DecodeEncodeRoundTrip := by
  unfold Obligations.DecodeEncodeRoundTrip
  intro i
  rw [decode_encode]
  exact ⟨requireBanks_of_wellFormed, fun h => ⟨_, requireBanks_of_not_wellFormed h⟩⟩

/-- Settles O4: each word is the encoding of its command. -/
theorem sampleWordsDecode : Obligations.SampleWordsDecode := by
  unfold Obligations.SampleWordsDecode
  exact ⟨decode_encode .nop, decode_encode (.gfAdd 0x53 0xCA), decode_encode (.gfDiv 0x1D 0x80), decode_encode (.gfExp 509),
    decode_encode (.gfLog 0x53), decode_encode (.vaxpy 0 1 0xCA), decode_encode (.vcopy 4 0), decode_encode (.vscale 0 2),
    decode_encode (.vzero 2), decode_encode .blkConfig, decode_encode .blkDecode⟩

section
variable {w : Word} {opc : Byte} {j : Instr} (hopc : fieldOpc w = opc)
include hopc

theorem encode_of_formatN {i : Instr} (hi : encode i = wordN opc) (h : formatN w i = .ok j) : encode j = w := by
  obtain ⟨hzero, hj⟩ := requireZero_eq_ok.1 h
  cases hj
  exact hi.trans (wordN_of_fields hopc hzero)

theorem encode_of_formatS2 {mk : Byte → Byte → Instr} (hmk : ∀ u v, encode (mk u v) = wordS2 opc u v)
    (h : formatS2 w mk = .ok j) : encode j = w := by
  obtain ⟨hzero, hj⟩ := requireZero_eq_ok.1 h
  cases hj
  exact (hmk _ _).trans (wordS2_of_fields hopc hzero)

end

/-- A word that decodes is the encoding of its command. The cases are the opcodes in the order of R86, and the formats are R81's
to R84's. -/
theorem encode_of_decode {w : Word} {i : Instr} (h : decode w = .ok i) : encode i = w := by
  unfold decode at h
  split at h
  all_goals rename_i hopc
  -- format N
  case h_1 | h_13 | h_14 | h_15 | h_16 | h_17 | h_18 | h_19 | h_20 | h_21 | h_22 | h_23 | h_24 | h_25 | h_26 =>
    exact encode_of_formatN hopc rfl h
  -- format S2
  case h_2 | h_3 | h_4 | h_5 => exact encode_of_formatS2 hopc (fun _ _ => rfl) h
  -- a reserved opcode
  case h_27 => cases h
  all_goals obtain ⟨hzero, hi⟩ := requireZero_eq_ok.1 h
  -- GF_EXP and GF_LOG
  case h_6 =>
    cases hi
    exact wordS9_of_fields hopc hzero
  case h_7 =>
    cases hi
    exact wordS1_of_fields hopc hzero
  -- VXOR and VCOPY, VSCALE, VAXPY, VZERO
  case h_8 | h_11 =>
    obtain rfl := eq_of_requireBanks hi
    exact wordV_of_noBeta hopc hzero
  case h_9 =>
    obtain ⟨hsb, hi⟩ := requireZero_eq_ok.1 hi
    obtain rfl := eq_of_requireBanks hi
    exact wordV_of_noSb hopc hzero hsb
  case h_10 =>
    obtain rfl := eq_of_requireBanks hi
    exact wordV_of_fields hopc hzero
  case h_12 =>
    obtain rfl := eq_of_requireBanks hi
    exact wordV_of_dbOnly hopc hzero

/-! ### The opcode map (R86) -/

/-- A masked word keeps the bits that the mask covers. -/
theorem extractLsb'_of_masked {w mask pattern : Word} (h : w &&& mask = pattern) {lo n : Nat}
    (hmask : mask.extractLsb' lo n = BitVec.allOnes n) : w.extractLsb' lo n = pattern.extractLsb' lo n := by
  rw [← h, BitVec.extractLsb'_and, hmask, BitVec.and_allOnes]

/-- A word that a row selects is the encoding of a command of that row. -/
theorem exists_encode_of_selects (w : Word) : ∀ r ∈ opcodeMap, w &&& r.mask = r.pattern →
    ∃ i : Instr, i.mnemonic = r.mnemonic ∧ encode i = w := by
  have field {mask pattern : Word} (h : w &&& mask = pattern) (lo n : Nat)
      (hmask : mask.extractLsb' lo n = BitVec.allOnes n) := extractLsb'_of_masked h hmask
  have whole {i : Instr} (h : w &&& 0xFFFFFFFF#32 = encode i) : encode i = w := h.symm.trans BitVec.and_allOnes
  simp only [opcodeMap, List.forall_mem_cons, List.not_mem_nil, false_imp_iff, implies_true, and_true]
  exact ⟨fun h => ⟨.nop, rfl, whole h⟩,
    fun h => ⟨.gfAdd _ _, rfl, wordS2_of_fields (field h 0 8 rfl) (field h 24 8 rfl)⟩,
    fun h => ⟨.gfSub _ _, rfl, wordS2_of_fields (field h 0 8 rfl) (field h 24 8 rfl)⟩,
    fun h => ⟨.gfMul _ _, rfl, wordS2_of_fields (field h 0 8 rfl) (field h 24 8 rfl)⟩,
    fun h => ⟨.gfDiv _ _, rfl, wordS2_of_fields (field h 0 8 rfl) (field h 24 8 rfl)⟩,
    fun h => ⟨.gfExp _, rfl, wordS9_of_fields (field h 0 8 rfl) (field h 17 15 rfl)⟩,
    fun h => ⟨.gfLog _, rfl, wordS1_of_fields (field h 0 8 rfl) (field h 16 16 rfl)⟩,
    fun h => ⟨.vxor _ _, rfl, wordV_of_noBeta (field h 0 8 rfl) (field h 16 16 rfl)⟩,
    fun h => ⟨.vscale _ _, rfl, wordV_of_noSb (field h 0 8 rfl) (field h 24 8 rfl) (field h 12 4 rfl)⟩,
    fun h => ⟨.vaxpy _ _ _, rfl, wordV_of_fields (field h 0 8 rfl) (field h 24 8 rfl)⟩,
    fun h => ⟨.vcopy _ _, rfl, wordV_of_noBeta (field h 0 8 rfl) (field h 16 16 rfl)⟩,
    fun h => ⟨.vzero _, rfl, wordV_of_dbOnly (field h 0 8 rfl) (field h 12 20 rfl)⟩,
    fun h => ⟨.sitCeil, rfl, whole h⟩, fun h => ⟨.sitLookup, rfl, whole h⟩, fun h => ⟨.partition, rfl, whole h⟩,
    fun h => ⟨.rand, rfl, whole h⟩, fun h => ⟨.deg, rfl, whole h⟩, fun h => ⟨.blkConfig, rfl, whole h⟩,
    fun h => ⟨.tuple, rfl, whole h⟩, fun h => ⟨.buildA, rfl, whole h⟩, fun h => ⟨.rowPattern, rfl, whole h⟩,
    fun h => ⟨.ltEnc, rfl, whole h⟩, fun h => ⟨.piSolve, rfl, whole h⟩, fun h => ⟨.blkEncode, rfl, whole h⟩,
    fun h => ⟨.blkSymbol, rfl, whole h⟩, fun h => ⟨.blkDecode, rfl, whole h⟩⟩

theorem wordS2_masked (opc u v : Byte) : wordS2 opc u v &&& 0xFF0000FF#32 = wordN opc := by
  change (0#8 ++ v ++ u ++ opc) &&& (BitVec.allOnes 8 ++ 0#8 ++ 0#8 ++ BitVec.allOnes 8) = 0#8 ++ 0#8 ++ 0#8 ++ opc
  simp only [BitVec.and_append, BitVec.and_allOnes, BitVec.and_zero]

/-- Formats S1 and S9: one operand between OPC and the bits that must be zero. -/
theorem operand_masked {n m : Nat} (x : BitVec m) (opc : Byte) :
    (0#n ++ x ++ opc) &&& (BitVec.allOnes n ++ 0#m ++ BitVec.allOnes 8) = 0#n ++ 0#m ++ opc := by
  simp only [BitVec.and_append, BitVec.and_allOnes, BitVec.and_zero]

/-- Format V, where the mask lies on SB and BETA as `maskSb` and `maskBeta`. -/
theorem wordV_masked {opc beta maskBeta : Byte} {db sb maskSb : BankCode} (hsb : sb &&& maskSb = 0#4)
    (hbeta : beta &&& maskBeta = 0#8) :
    wordV opc db sb beta &&& (BitVec.allOnes 8 ++ maskBeta ++ maskSb ++ 0#4 ++ BitVec.allOnes 8) = wordN opc := by
  change (0#8 ++ beta ++ sb ++ db ++ opc) &&& (BitVec.allOnes 8 ++ maskBeta ++ maskSb ++ 0#4 ++ BitVec.allOnes 8) =
    0#8 ++ 0#8 ++ 0#4 ++ 0#4 ++ opc
  simp only [BitVec.and_append, BitVec.and_allOnes, BitVec.and_zero, hsb, hbeta]

/-- The encoding of a command is selected by the command's row. -/
theorem exists_row_of_encode (i : Instr) :
    ∃ r ∈ opcodeMap, r.mnemonic = i.mnemonic ∧ encode i &&& r.mask = r.pattern := by
  cases i with
  | gfAdd u v => exact ⟨⟨"GF_ADD", _, _⟩, by simp [opcodeMap], rfl, wordS2_masked _ u v⟩
  | gfSub u v => exact ⟨⟨"GF_SUB", _, _⟩, by simp [opcodeMap], rfl, wordS2_masked _ u v⟩
  | gfMul u v => exact ⟨⟨"GF_MUL", _, _⟩, by simp [opcodeMap], rfl, wordS2_masked _ u v⟩
  | gfDiv u v => exact ⟨⟨"GF_DIV", _, _⟩, by simp [opcodeMap], rfl, wordS2_masked _ u v⟩
  | gfExp idx => exact ⟨⟨"GF_EXP", _, _⟩, by simp [opcodeMap], rfl, operand_masked idx _⟩
  | gfLog x => exact ⟨⟨"GF_LOG", _, _⟩, by simp [opcodeMap], rfl, operand_masked x _⟩
  | vxor db sb => exact ⟨⟨"VXOR", _, _⟩, by simp [opcodeMap], rfl, wordV_masked BitVec.and_zero BitVec.and_allOnes⟩
  | vscale db beta => exact ⟨⟨"VSCALE", _, _⟩, by simp [opcodeMap], rfl, wordV_masked BitVec.and_allOnes BitVec.and_zero⟩
  | vaxpy db sb beta => exact ⟨⟨"VAXPY", _, _⟩, by simp [opcodeMap], rfl, wordV_masked BitVec.and_zero BitVec.and_zero⟩
  | vcopy db sb => exact ⟨⟨"VCOPY", _, _⟩, by simp [opcodeMap], rfl, wordV_masked BitVec.and_zero BitVec.and_allOnes⟩
  | vzero db => exact ⟨⟨"VZERO", _, _⟩, by simp [opcodeMap], rfl, wordV_masked BitVec.and_allOnes BitVec.and_allOnes⟩
  | nop | sitCeil | sitLookup | partition | rand | deg | blkConfig | tuple | buildA | rowPattern | ltEnc | piSolve
  | blkEncode | blkSymbol | blkDecode => decide

theorem opcodeMap_masks_cover_opc : ∀ r ∈ opcodeMap, r.mask.extractLsb' 0 8 = BitVec.allOnes 8 := by decide

theorem opcodeMap_eq_of_opc : ∀ r ∈ opcodeMap, ∀ r' ∈ opcodeMap,
    r.pattern.extractLsb' 0 8 = r'.pattern.extractLsb' 0 8 → r = r' := by decide

/-- Every mask covers OPC (R87). -/
theorem fieldOpc_of_selects {w : Word} {r : OpcodeRow} (hr : r ∈ opcodeMap) (h : w &&& r.mask = r.pattern) :
    fieldOpc w = r.pattern.extractLsb' 0 8 :=
  extractLsb'_of_masked h (opcodeMap_masks_cover_opc r hr)

/-- At most one row selects a word (R87). -/
theorem row_unique {w : Word} {r r' : OpcodeRow} (hr : r ∈ opcodeMap) (hr' : r' ∈ opcodeMap)
    (h : w &&& r.mask = r.pattern) (h' : w &&& r'.mask = r'.pattern) : r = r' :=
  opcodeMap_eq_of_opc r hr r' hr' ((fieldOpc_of_selects hr h).symm.trans (fieldOpc_of_selects hr' h'))

theorem opcodes_of_opcodeMap : opcodeMap.map (fun r => bits r.pattern 0 8) =
    [0x00, 0x01, 0x02, 0x03, 0x04, 0x05, 0x06, 0x10, 0x11, 0x12, 0x13, 0x14, 0x20, 0x21, 0x22, 0x23, 0x24,
      0x30, 0x31, 0x32, 0x33, 0x34, 0x38, 0x40, 0x41, 0x42] := by decide

/-- The opcodes outside the map are the listed ranges (R88). -/
theorem reservedOpc_iff {o : Nat} (ho : o < 256) : reservedOpc o ↔ ∀ r ∈ opcodeMap, bits r.pattern 0 8 ≠ o := by
  have hlist : (∀ c ∈ opcodeMap.map fun r => bits r.pattern 0 8, c ≠ o) ↔ ∀ r ∈ opcodeMap, bits r.pattern 0 8 ≠ o := by
    rw [List.forall_mem_map]
  rw [← hlist, opcodes_of_opcodeMap]
  simp only [List.forall_mem_cons, List.not_mem_nil, false_imp_iff, implies_true, and_true]
  omega

/-! ### The decoding procedure at the core's turn (R87) -/

theorem bankCodeOk_eq_false {c : BankCode} : bankCodeOk c = false ↔ 5 ≤ c.toNat := by
  simp [bankCodeOk, BitVec.lt_def]

section
variable (m : String) {opc : Byte} (beta : Byte) (db sb : BankCode)

theorem badBank_wordV : badBank m (wordV opc db sb beta) ↔
    isVector m ∧ (bankCodeOk db = false ∨ usesSb m ∧ bankCodeOk sb = false) := by
  have hdb : bits (wordV opc db sb beta) 8 4 = db.toNat :=
    (bits_eq_extractLsb' _ 8 4).trans (congrArg BitVec.toNat (fieldDb_wordV _ _ _ _))
  have hsb : bits (wordV opc db sb beta) 12 4 = sb.toNat :=
    (bits_eq_extractLsb' _ 12 4).trans (congrArg BitVec.toNat (fieldSb_wordV _ _ _ _))
  rw [badBank, hdb, hsb, bankCodeOk_eq_false, bankCodeOk_eq_false]

theorem badBank_of_usesSb (hvec : isVector m) (hsb : usesSb m) :
    badBank m (wordV opc db sb beta) ↔ (bankCodeOk db && bankCodeOk sb) = false := by
  simp only [badBank_wordV, hvec, hsb, true_and, Bool.and_eq_false_iff]

theorem badBank_of_not_usesSb (hvec : isVector m) (hsb : ¬usesSb m) :
    badBank m (wordV opc db sb beta) ↔ bankCodeOk db = false := by
  simp only [badBank_wordV, hvec, hsb, true_and, false_and, or_false]

end

/-- R87's bank checks on an encoding are the checks on the command. -/
theorem badBank_encode (i : Instr) : badBank i.mnemonic (encode i) ↔ i.wellFormed = false := by
  cases i with
  | vxor db sb => exact badBank_of_usesSb "VXOR" _ db sb (by decide) (by decide)
  | vaxpy db sb beta => exact badBank_of_usesSb "VAXPY" beta db sb (by decide) (by decide)
  | vcopy db sb => exact badBank_of_usesSb "VCOPY" _ db sb (by decide) (by decide)
  | vscale db beta => exact badBank_of_not_usesSb "VSCALE" beta db _ (by decide) (by decide)
  | vzero db => exact badBank_of_not_usesSb "VZERO" _ db _ (by decide) (by decide)
  | _ => exact iff_of_false (fun h => absurd h.1 (by simp [isVector, Instr.mnemonic])) Bool.noConfusion

theorem coreTurn_of_illegal {s : State} {e : DecodeError} (hb : s.status.busy = true) (hd : decode s.cmd = .error e) :
    coreTurn s = .next (failState s 0x01) := by
  rw [coreTurn, if_pos hb, hd]
  rfl

/-- The core's turn while BUSY = 1 refuses a word that does not decode (R88). -/
theorem step_of_illegal {s s1 : State} {e : DecodeError} (hb : s.status.busy = true) (hm : CoreMoves s s1)
    (hd : decode s.cmd = .error e) : step s = .next (failState s1 0x01) := by
  rcases hm with ⟨hh, rfl⟩ | ⟨rest, hh, rfl⟩
  · rw [step, takeTurn, hh]
    exact coreTurn_of_illegal hb hd
  · rw [step, takeTurn, hh]
    exact coreTurn_of_illegal hb hd

theorem decode_of_no_row {w : Word} (h : ∀ r ∈ opcodeMap, w &&& r.mask ≠ r.pattern) : ∃ e, decode w = .error e := by
  cases hd : decode w with
  | error e => exact ⟨e, rfl⟩
  | ok i =>
    obtain ⟨r, hr, -, hsel⟩ := exists_row_of_encode i
    rw [encode_of_decode hd] at hsel
    exact absurd hsel (h r hr)

/-- Settles O2: a selected word is the encoding of one of its row's commands, whose bank codes R87's checks read; a word that
decodes is selected. -/
theorem decodingProcedure : Obligations.DecodingProcedure := by
  unfold Obligations.DecodingProcedure
  refine ⟨fun s s1 hb hm => ⟨fun r hr r' hr' => row_unique hr hr', fun hno => ?_, fun r hr hsel => ?_⟩,
    fun w => ⟨reservedOpc_iff (Nat.mod_lt _ (by decide)), fun r hr hsel => ?_⟩⟩
  · obtain ⟨e, hd⟩ := decode_of_no_row hno
    exact step_of_illegal hb hm hd
  · obtain ⟨i, hname, hcmd⟩ := exists_encode_of_selects s.cmd r hr hsel
    have hd : decode s.cmd = requireBanks i := hcmd ▸ decode_encode i
    rw [← hname, ← hcmd, badBank_encode, Bool.not_eq_false]
    exact ⟨fun hbad => step_of_illegal hb hm (hd.trans (requireBanks_of_not_wellFormed hbad)), fun hwf =>
      ⟨i, rfl, rfl, step_of_coreMoves hb hm (hd.trans (requireBanks_of_wellFormed hwf))⟩⟩
  · rw [bits_eq_extractLsb', bits_eq_extractLsb', ← fieldOpc_of_selects hr hsel]
    rfl

end Sys2Proof.Machine
end

section
/-! PROOFS. GF(256) through the tables (spec/40_gf256.md R100 to R106): products and quotients of powers of the generator are
powers of the generator, and the product over the tables is the product of polynomials modulo GF_POLY. -/

namespace Sys2Proof.Machine
open Sys2Proof.Claims

/-! ### Multiplication by the generator -/

section
variable (poly : Nat) (x y : Byte)

/-- Multiplication by the generator as a shift and a conditional reduction (R100). -/
theorem gfTimesAlpha_eq_shift :
    gfTimesAlpha poly x = x <<< 1 ^^^ if x.msb then BitVec.ofNat 8 poly else 0#8 := by
  have hshift : BitVec.ofNat 8 (x.toNat * 2) = x <<< 1 := by bv_omega
  have hmsb : x.msb = true ↔ ¬x.toNat * 2 < 256 := by rw [BitVec.msb_eq_decide]; simp; omega
  rw [gfTimesAlpha]
  split
  · rw [hshift, if_neg (by simp_all), BitVec.xor_zero]
  · rw [BitVec.ofNat_xor, hshift, if_pos (by simp_all)]

/-- Multiplication by the generator is linear over GF(2). -/
theorem gfTimesAlpha_xor : gfTimesAlpha poly (x ^^^ y) = gfTimesAlpha poly x ^^^ gfTimesAlpha poly y := by
  have hreduce (c : Byte) (p q : Bool) : (if p ^^ q then c else 0#8) = (if p then c else 0#8) ^^^ if q then c else 0#8 := by
    cases p <;> cases q <;> simp
  simp only [gfTimesAlpha_eq_shift, BitVec.shiftLeft_xor_distrib, BitVec.msb_xor, hreduce]
  ac_rfl

@[simp] theorem gfTimesAlpha_zero : gfTimesAlpha poly 0#8 = 0#8 := rfl

/-- The constant coefficient after multiplication by the generator is GF_POLY's, if there is a reduction. -/
theorem getLsbD_zero_gfTimesAlpha : (gfTimesAlpha poly x).getLsbD 0 = (x.msb && poly.testBit 0) := by
  rw [gfTimesAlpha_eq_shift, BitVec.getLsbD_xor]
  cases x.msb
  · simp
  · simp [BitVec.getLsbD_ofNat, -BitVec.getLsbD_eq_getElem]

variable {poly}

/-- With a nonzero constant coefficient of GF_POLY, multiplication by the generator takes no other byte to 0. -/
theorem eq_zero_of_gfTimesAlpha (hpoly : poly.testBit 0 = true) {x : Byte} (hx : gfTimesAlpha poly x = 0#8) : x = 0#8 := by
  have hmsb : x.msb = false := by
    have hbit := getLsbD_zero_gfTimesAlpha poly x
    rw [hx, hpoly, Bool.and_true] at hbit
    exact hbit.symm
  rw [gfTimesAlpha_eq_shift, hmsb, if_neg Bool.false_ne_true, BitVec.xor_zero] at hx
  rw [BitVec.msb_eq_false_iff_two_mul_lt] at hmsb
  bv_omega

theorem gfTimesAlpha_injective (hpoly : poly.testBit 0 = true) : Function.Injective (gfTimesAlpha poly) := by
  intro x y hxy
  rw [← BitVec.xor_eq_zero_iff]
  exact eq_zero_of_gfTimesAlpha hpoly (by rw [gfTimesAlpha_xor, hxy, BitVec.xor_self])

end

/-! ### The powers of the generator -/

section
variable {poly : Nat} {exp log : List Byte}

/-- Every nonzero byte is one of the first 255 powers (R31). -/
theorem GfTablesOk.exists_alphaPow (h : GfTablesOk poly exp log) {x : Byte} (hx : x ≠ 0) :
    ∃ n < 255, alphaPow poly n = x :=
  ⟨_, h.log_lt hx, by rw [← h.exp_eq_alphaPow (h.log_lt hx), h.exp_log hx]⟩

/-- The first 255 powers are different. -/
theorem GfTablesOk.alphaPow_inj (h : GfTablesOk poly exp log) {n m : Nat} (hn : n < 255) (hm : m < 255)
    (heq : alphaPow poly n = alphaPow poly m) : n = m := by
  rw [← h.log_exp hn, ← h.log_exp hm, h.exp_eq_alphaPow hn, h.exp_eq_alphaPow hm, heq]

/-- GF_POLY has a constant coefficient: without one every power but the first would be even, and 3 is a power. -/
theorem GfTablesOk.poly_odd (h : GfTablesOk poly exp log) : poly.testBit 0 = true := by
  obtain ⟨n, -, hn⟩ := h.exists_alphaPow (x := 3) (by decide)
  cases n with
  | zero => cases hn
  | succ n =>
    have hbit := getLsbD_zero_gfTimesAlpha poly (alphaPow poly n)
    rw [← alphaPow, hn] at hbit
    exact (Bool.and_eq_true_iff.1 hbit.symm).2

theorem GfTablesOk.alphaPow_ne_zero (h : GfTablesOk poly exp log) (n : Nat) : alphaPow poly n ≠ 0 := by
  induction n with
  | zero => exact (by decide : (1 : Byte) ≠ 0)
  | succ n ih => exact fun hzero => ih (eq_zero_of_gfTimesAlpha h.poly_odd hzero)

/-- The generator has order 255: its 255th power is one of the first 255, and it can be no other one than the first, since
multiplication by the generator is injective. -/
theorem GfTablesOk.alphaPow_period (h : GfTablesOk poly exp log) : alphaPow poly 255 = 1 := by
  obtain ⟨m, hm, heq⟩ := h.exists_alphaPow (h.alphaPow_ne_zero 255)
  cases m with
  | zero => exact heq.symm
  | succ m =>
    have hlast : m = 254 := h.alphaPow_inj (by omega) (by omega) (gfTimesAlpha_injective h.poly_odd heq)
    omega

theorem GfTablesOk.alphaPow_add_period (h : GfTablesOk poly exp log) (n : Nat) :
    alphaPow poly (n + 255) = alphaPow poly n := by
  induction n with
  | zero => exact (congrArg _ (Nat.zero_add 255)).trans h.alphaPow_period
  | succ n ih => rw [Nat.succ_add, alphaPow, ih, alphaPow]

theorem GfTablesOk.alphaPow_mod (h : GfTablesOk poly exp log) (n : Nat) :
    alphaPow poly (n % 255) = alphaPow poly n :=
  (show Function.Periodic (alphaPow poly) 255 from h.alphaPow_add_period).map_mod_nat n

/-- EXP_ROM holds the powers at all its indices (R30, R104). -/
theorem GfTablesOk.exp_eq_alphaPow_of_lt (h : GfTablesOk poly exp log) {n : Nat} (hn : n < 510) :
    exp.getD n 0 = alphaPow poly n := by
  rw [h.exp_mod hn, h.exp_eq_alphaPow (Nat.mod_lt n (by decide)), h.alphaPow_mod]

/-- LOG_ROM answers the exponent of a power modulo the order of the generator (R31). -/
theorem GfTablesOk.log_alphaPow (h : GfTablesOk poly exp log) (n : Nat) :
    (log.getD ((alphaPow poly n).toNat - 1) 0).toNat = n % 255 := by
  have hlt := Nat.mod_lt n (show 255 > 0 by decide)
  rw [← h.alphaPow_mod, ← h.exp_eq_alphaPow hlt, h.log_exp hlt]

end

/-! ### Products and quotients of powers -/

theorem gfMul_zero_left (b : Build) (v : Byte) : gfMul b 0 v = 0 := if_pos (.inl rfl)

theorem gfMul_zero_right (b : Build) (u : Byte) : gfMul b u 0 = 0 := if_pos (.inr rfl)

theorem gfDiv_zero_left (b : Build) (v : Byte) : gfDiv b 0 v = 0 := by
  unfold gfDiv
  split <;> rfl

theorem expEntry_of_lt (b : Build) {i : Nat} (hi : i < 510) : expEntry b i = b.expRom.getD i 0 := if_pos hi

section
variable {b : Build} (hb : BuildOk b)
include hb

theorem BuildOk.tables : GfTablesOk b.gfPoly b.expRom b.logRom := hb.2

theorem BuildOk.eq_zero_or_alphaPow (x : Byte) : x = 0 ∨ ∃ n < 255, alphaPow b.gfPoly n = x :=
  (em (x = 0)).imp_right hb.tables.exists_alphaPow

theorem gfLog_alphaPow (n : Nat) : (gfLog b (alphaPow b.gfPoly n)).toNat = n % 255 :=
  hb.tables.log_alphaPow n

theorem expEntry_eq_alphaPow {i : Nat} (hi : i < 510) : expEntry b i = alphaPow b.gfPoly i :=
  (expEntry_of_lt b hi).trans (hb.tables.exp_eq_alphaPow_of_lt hi)

/-- Powers with the same exponent modulo the order of the generator are the same. -/
theorem alphaPow_congr {n m : Nat} (hnm : n % 255 = m % 255) : alphaPow b.gfPoly n = alphaPow b.gfPoly m := by
  rw [← hb.tables.alphaPow_mod n, hnm, hb.tables.alphaPow_mod]

/-- The power 1 has exponent 0 modulo the order. -/
theorem mod_eq_zero_of_alphaPow_eq_one {n : Nat} (hn : alphaPow b.gfPoly n = 1) : n % 255 = 0 := by
  rw [← gfLog_alphaPow hb, hn]
  exact gfLog_alphaPow hb 0

/-- The product of two powers is the power of the sum of their exponents (R102). -/
theorem gfMul_alphaPow (n m : Nat) :
    gfMul b (alphaPow b.gfPoly n) (alphaPow b.gfPoly m) = alphaPow b.gfPoly (n + m) := by
  have hzero := hb.tables.alphaPow_ne_zero
  rw [gfMul, if_neg (not_or.2 ⟨hzero n, hzero m⟩), gfLog_alphaPow hb, gfLog_alphaPow hb]
  split
  · rename_i hn
    have hmod := mod_eq_zero_of_alphaPow_eq_one hb hn
    exact alphaPow_congr hb (by omega)
  · split
    · rename_i hm
      have hmod := mod_eq_zero_of_alphaPow_eq_one hb hm
      exact alphaPow_congr hb (by omega)
    · rw [expEntry_eq_alphaPow hb (by omega)]
      exact alphaPow_congr hb (by omega)

/-- Division by a power undoes the multiplication by it (R103). -/
theorem gfDiv_alphaPow (n m : Nat) :
    gfDiv b (alphaPow b.gfPoly (n + m)) (alphaPow b.gfPoly m) = alphaPow b.gfPoly n := by
  rw [gfDiv, if_neg (c := alphaPow b.gfPoly (n + m) = 0) (hb.tables.alphaPow_ne_zero _),
    gfLog_alphaPow hb, gfLog_alphaPow hb]
  split
  · rename_i hm
    have hmod := mod_eq_zero_of_alphaPow_eq_one hb hm
    exact alphaPow_congr hb (by omega)
  · rw [expEntry_eq_alphaPow hb (by omega)]
    exact alphaPow_congr hb (by omega)

end

/-! ### The product of polynomials -/

section
variable (poly : Nat) (u v w : Byte) (n : Nat)

theorem polyProduct_zero_left : polyProduct poly 0 n v = 0 := by
  induction n generalizing v with
  | zero => rfl
  | succ n ih => rw [polyProduct, ih]; simp

theorem polyProduct_zero_right : polyProduct poly u n 0 = 0 := by
  induction n with
  | zero => rfl
  | succ n ih => rw [polyProduct, show gfTimesAlpha poly 0 = 0 from rfl, ih]; simp

/-- The product is linear over GF(2) in its second factor. -/
theorem polyProduct_xor : polyProduct poly u n (v ^^^ w) = polyProduct poly u n v ^^^ polyProduct poly u n w := by
  induction n generalizing v w with
  | zero => exact (BitVec.xor_self (x := 0#8)).symm
  | succ n ih =>
    rw [polyProduct, gfTimesAlpha_xor, ih, polyProduct, polyProduct]
    cases u.getLsbD (7 - n)
    · simp
    · simp
      ac_rfl

/-- A factor of the generator comes out of the product. -/
theorem polyProduct_gfTimesAlpha :
    polyProduct poly u n (gfTimesAlpha poly v) = gfTimesAlpha poly (polyProduct poly u n v) := by
  induction n generalizing v with
  | zero => rfl
  | succ n ih =>
    rw [polyProduct, ih, polyProduct, gfTimesAlpha_xor]
    cases u.getLsbD (7 - n) <;> simp

/-- A byte is the sum of its bits, each at its place. -/
theorem xor_bits_eq_self : ∀ u : Byte,
    (if u.getLsbD 0 then 1 else 0) ^^^ ((if u.getLsbD 1 then 2 else 0) ^^^ ((if u.getLsbD 2 then 4 else 0) ^^^
      ((if u.getLsbD 3 then 8 else 0) ^^^ ((if u.getLsbD 4 then 16 else 0) ^^^ ((if u.getLsbD 5 then 32 else 0) ^^^
        ((if u.getLsbD 6 then 64 else 0) ^^^ ((if u.getLsbD 7 then 128 else 0) ^^^ 0))))))) = u := by decide

/-- The product with 1 is the sum of the bits: the powers 0 to 7 of the generator need no reduction, whatever GF_POLY is. -/
theorem polyProduct_one : polyProduct poly u 8 1 = u := by
  simpa [polyProduct, gfTimesAlpha] using xor_bits_eq_self u

/-- The product with a power of the generator is so many multiplications by the generator. -/
theorem polyProduct_alphaPow (m : Nat) :
    polyProduct poly (alphaPow poly m) 8 (alphaPow poly n) = alphaPow poly (m + n) := by
  induction n with
  | zero => exact polyProduct_one poly _
  | succ n ih => rw [alphaPow, polyProduct_gfTimesAlpha, ih, ← Nat.add_assoc, alphaPow]

end

/-- The product over the tables is that of polynomials: nonzero factors are powers of the generator, whose products both ways
add their exponents (R100, R102). -/
theorem gfMul_eq_polyProduct {b : Build} (hb : BuildOk b) (u v : Byte) : gfMul b u v = polyProduct b.gfPoly u 8 v := by
  obtain rfl | ⟨n, -, rfl⟩ := hb.eq_zero_or_alphaPow u
  · rw [gfMul_zero_left, polyProduct_zero_left]
  obtain rfl | ⟨m, -, rfl⟩ := hb.eq_zero_or_alphaPow v
  · rw [gfMul_zero_right, polyProduct_zero_right]
  rw [gfMul_alphaPow hb, polyProduct_alphaPow]

/-- Settles O32. -/
theorem gfMulIsThePolynomialProduct : Obligations.GfMulIsThePolynomialProduct := by
  unfold Obligations.GfMulIsThePolynomialProduct
  exact fun _ => gfMul_eq_polyProduct

/-! ### The laws of the field -/

section
variable {b : Build} (hb : BuildOk b)
include hb

theorem gfMul_comm (u v : Byte) : gfMul b u v = gfMul b v u := by
  obtain rfl | ⟨n, -, rfl⟩ := hb.eq_zero_or_alphaPow u
  · rw [gfMul_zero_left, gfMul_zero_right]
  obtain rfl | ⟨m, -, rfl⟩ := hb.eq_zero_or_alphaPow v
  · rw [gfMul_zero_left, gfMul_zero_right]
  rw [gfMul_alphaPow hb, gfMul_alphaPow hb, Nat.add_comm]

theorem gfMul_one (u : Byte) : gfMul b u 1 = u := by
  rw [gfMul_eq_polyProduct hb, polyProduct_one]

theorem gfMul_xor (u v w : Byte) : gfMul b u (v ^^^ w) = gfMul b u v ^^^ gfMul b u w := by
  simp only [gfMul_eq_polyProduct hb, polyProduct_xor]

/-- Nonzero factors multiply as powers of the generator, whose exponents their logarithms are (R106). -/
theorem gfMul_eq_alphaPow {u v : Byte} (hu : u ≠ 0) (hv : v ≠ 0) :
    gfMul b u v = alphaPow b.gfPoly (((gfLog b u).toNat + (gfLog b v).toNat) % 255) := by
  obtain ⟨n, -, rfl⟩ := hb.tables.exists_alphaPow hu
  obtain ⟨m, -, rfl⟩ := hb.tables.exists_alphaPow hv
  rw [gfMul_alphaPow hb, gfLog_alphaPow hb, gfLog_alphaPow hb, ← Nat.add_mod, hb.tables.alphaPow_mod]

theorem gfDiv_gfMul (u : Byte) {v : Byte} (hv : v ≠ 0) : gfDiv b (gfMul b u v) v = u := by
  obtain rfl | ⟨n, -, rfl⟩ := hb.eq_zero_or_alphaPow u
  · rw [gfMul_zero_left, gfDiv_zero_left]
  obtain ⟨m, -, rfl⟩ := hb.tables.exists_alphaPow hv
  rw [gfMul_alphaPow hb, gfDiv_alphaPow hb]

theorem gfDiv_eq_gfMul (u : Byte) {v : Byte} (hv : v ≠ 0) : gfDiv b u v = gfMul b u (gfDiv b 1 v) := by
  obtain rfl | ⟨n, -, rfl⟩ := hb.eq_zero_or_alphaPow u
  · rw [gfMul_zero_left, gfDiv_zero_left]
  obtain ⟨m, hm, rfl⟩ := hb.tables.exists_alphaPow hv
  have hquot (k : Nat) : gfDiv b (alphaPow b.gfPoly k) (alphaPow b.gfPoly m) = alphaPow b.gfPoly (k + (255 - m)) := by
    rw [← gfDiv_alphaPow hb (k + (255 - m)) m]
    exact congrArg (gfDiv b · _) (alphaPow_congr hb (by omega))
  rw [show gfDiv b 1 _ = _ from hquot 0, hquot, gfMul_alphaPow hb, Nat.zero_add]

end

/-- Settles O31. -/
theorem fieldLaws : Obligations.FieldLaws := by
  unfold Obligations.FieldLaws
  intro b hb u v w
  refine ⟨gfMul_zero_right b u, gfMul_one hb u, gfMul_comm hb u v, gfDiv_gfMul hb u, hb.tables.exp_log, BitVec.xor_assoc u v w,
    BitVec.xor_comm u v, BitVec.xor_zero, BitVec.xor_self, fun hu hv => ?_, gfMul_xor hb u v w, gfDiv_eq_gfMul hb u⟩
  rw [gfMul_eq_alphaPow hb hu hv]
  exact ⟨rfl, hb.tables.alphaPow_ne_zero _⟩

end Sys2Proof.Machine
end

section
/-! PROOFS. The scalar commands GF_ADD to GF_LOG: their words (spec/30_encoding.md R82, R83, R86), and their results over EXP_ROM
and LOG_ROM (40_gf256.md R110 to R115). -/

namespace Sys2Proof.Machine
open Sys2Proof.Claims

/-! ### The fields of a word as the host writes them -/

section
variable {w : Word}

theorem extractLsb'_eq_ofNat_bits (lo n : Nat) : w.extractLsb' lo n = BitVec.ofNat n (bits w lo n) := by
  rw [bits_eq_extractLsb', BitVec.ofNat_toNat, BitVec.setWidth_eq]

theorem extractLsb'_eq_zero_iff {lo n : Nat} : w.extractLsb' lo n = 0#n ↔ bits w lo n = 0 := by
  rw [bits_eq_extractLsb', BitVec.toNat_eq, BitVec.toNat_ofNat, Nat.zero_mod]

theorem fieldOpc_of_bits {opc : Nat} (h : bits w 0 8 = opc) : fieldOpc w = BitVec.ofNat 8 opc :=
  h ▸ extractLsb'_eq_ofNat_bits 0 8

/-- A word that decodes exactly where `p` holds, and then to `i`, is refused exactly where `p` does not hold. -/
theorem decode_of_iff {p : Prop} {i : Instr} (h : ∀ j, decode w = .ok j ↔ p ∧ i = j) :
    (p → decode w = .ok i) ∧ (¬p → ∃ e, decode w = .error e) := by
  refine ⟨fun hp => (h i).2 ⟨hp, rfl⟩, fun hp => ?_⟩
  cases hd : decode w with
  | error e => exact ⟨e, rfl⟩
  | ok j => exact absurd ((h j).1 hd).1 hp

/-- The words of a format whose command has no bank code: refused where a bit that must be zero is set (R80, R86). -/
theorem decode_of_requireZero {lo n : Nat} {i : Instr} (h : decode w = requireZero (w.extractLsb' lo n) (.ok i)) :
    (bits w lo n = 0 → decode w = .ok i) ∧ (bits w lo n ≠ 0 → ∃ e, decode w = .error e) :=
  decode_of_iff fun j => by rw [h, requireZero_eq_ok, extractLsb'_eq_zero_iff, Except.ok.injEq]

end

/-- An opcode that decodes by format S2 (R82). -/
theorem encodedS2_of_decode {opc : Nat} {mk : Byte → Byte → Instr}
    (h : ∀ w, fieldOpc w = BitVec.ofNat 8 opc → decode w = formatS2 w mk) : EncodedS2 opc mk := by
  intro w hopc
  rw [← extractLsb'_eq_ofNat_bits, ← extractLsb'_eq_ofNat_bits]
  exact decode_of_requireZero (h w (fieldOpc_of_bits hopc))

/-! ### What the commands answer -/

section
variable (s : State)

theorem exec_gfMul (u v : Byte) : exec (.gfMul u v) s = .next (res0State s ((gfMul s.build u v).setWidth 32)) := rfl

theorem exec_gfDiv (u : Byte) {v : Byte} (hv : v ≠ 0) :
    exec (.gfDiv u v) s = .next (res0State s ((gfDiv s.build u v).setWidth 32)) := if_neg hv

theorem exec_gfExp {idx : BitVec 9} (hidx : idx.toNat < 510) :
    exec (.gfExp idx) s = .next (res0State s ((s.build.expRom.getD idx.toNat 0).setWidth 32)) := by
  rw [← expEntry_of_lt s.build hidx]
  exact if_neg (Nat.not_le_of_lt hidx)

theorem exec_gfLog {x : Byte} (hx : x ≠ 0) :
    exec (.gfLog x) s = .next (res0State s ((s.build.logRom.getD (x.toNat - 1) 0).setWidth 32)) := if_neg hx

end

/-! ### The rules of the product and the quotient (40_gf256.md R102, R103) -/

section
variable {b : Build} (hb : BuildOk b)
include hb

theorem gfLog_lt {x : Byte} (hx : x ≠ 0) : (gfLog b x).toNat < 255 := hb.tables.log_lt hx

/-- The sum of two logarithms is an index of EXP_ROM (R104). -/
theorem gfMul_eq_mulRule (u v : Byte) : gfMul b u v = mulRule b u v := by
  unfold gfMul mulRule
  split
  · rfl
  · rename_i hzero
    have hu := gfLog_lt hb fun h => hzero (.inl h)
    have hv := gfLog_lt hb fun h => hzero (.inr h)
    rw [expEntry_of_lt b (by omega)]
    rfl

/-- The difference of two logarithms and the period is an index of EXP_ROM (R104). -/
theorem gfDiv_eq_divRule (u v : Byte) : gfDiv b u v = divRule b u v := by
  unfold gfDiv divRule
  split
  · rfl
  · split
    · rfl
    · rename_i hu
      have hlu := gfLog_lt hb hu
      rw [expEntry_of_lt b (by omega)]
      rfl

theorem gfDiv_self {v : Byte} (hv : v ≠ 0) : gfDiv b v v = 1 := by
  have h := gfDiv_gfMul hb 1 hv
  rwa [gfMul_comm hb, gfMul_one hb] at h

end

/-! ### The default tables (40_gf256.md R107, R108) -/

section
variable {s : State} (hexp : s.build.expRom = gfExpRom) (hlog : s.build.logRom = gfLogRom)

include hexp hlog in
theorem gfMul_examples :
    gfMul s.build 0x80 0x02 = 0x1D ∧ gfMul s.build 0xFF 0xFF = 0xE2 ∧ gfMul s.build 0x53 0xCA = 0x8F := by
  simp only [gfMul, gfLog, expEntry, hexp, hlog]
  decide

include hexp hlog in
theorem gfDiv_examples : gfDiv s.build 0x01 0x53 = 0x8C ∧ gfDiv s.build 0x1D 0x80 = 0x02 := by
  simp only [gfDiv, gfLog, expEntry, hexp, hlog]
  decide

include hexp in
theorem exec_gfExp_default {idx : BitVec 9} (x : Byte) (hidx : idx.toNat < 510) (hx : gfExpRom.getD idx.toNat 0 = x) :
    exec (.gfExp idx) s = .next (res0State s (x.setWidth 32)) := by
  rw [exec_gfExp s hidx, hexp, hx]

include hlog in
theorem exec_gfLog_default {x : Byte} (e : Byte) (hx : x ≠ 0) (he : gfLogRom.getD (x.toNat - 1) 0 = e) :
    exec (.gfLog x) s = .next (res0State s (e.setWidth 32)) := by
  rw [exec_gfLog s hx, hlog, he]

end

/-! ### The results -/

/-- Settles O26. -/
theorem gfAddAndGfSub : Obligations.GfAddAndGfSub := by
  unfold Obligations.GfAddAndGfSub
  exact ⟨encodedS2_of_decode fun w h => by rw [decode, h]; rfl, encodedS2_of_decode fun w h => by rw [decode, h]; rfl,
    fun s u v => ⟨rfl, rfl⟩⟩

/-- Settles O27: the index that the rule reads is below 510. -/
theorem gfMulResult : Obligations.GfMulResult := by
  unfold Obligations.GfMulResult
  refine ⟨encodedS2_of_decode fun w h => by rw [decode, h]; rfl, fun s u v hb => ?_, fun s hexp hlog => ?_⟩
  · rw [exec_gfMul, gfMul_eq_mulRule hb]
  · obtain ⟨hreduce, hsquare, hproduct⟩ := gfMul_examples hexp hlog
    rw [exec_gfMul, exec_gfMul, exec_gfMul, hreduce, hsquare, hproduct]
    exact ⟨rfl, rfl, rfl⟩

/-- Settles O28: the index that the rule reads is below 510, and v / v = (1 · v) / v = 1. -/
theorem gfDivResult : Obligations.GfDivResult := by
  unfold Obligations.GfDivResult
  refine ⟨encodedS2_of_decode fun w h => by rw [decode, h]; rfl, fun s u => rfl, fun s u v hb hv => ⟨?_, ?_⟩,
    fun s hexp hlog => ?_⟩
  · rw [exec_gfDiv s u hv, gfDiv_eq_divRule hb]
  · rintro rfl
    rw [← gfDiv_eq_divRule hb, gfDiv_self hb hv]
  · obtain ⟨hinverse, hquotient⟩ := gfDiv_examples hexp hlog
    rw [exec_gfDiv s _ (by decide), exec_gfDiv s _ (by decide), hinverse, hquotient]
    exact ⟨rfl, rfl⟩

/-- Settles O29. -/
theorem gfExpAndGfLog : Obligations.GfExpAndGfLog := by
  unfold Obligations.GfExpAndGfLog
  refine ⟨fun w h => ?_, fun w h => ?_, fun s => ⟨fun idx h => if_pos h, fun idx => exec_gfExp s, rfl, fun x => exec_gfLog s,
    fun hexp hlog => ?_⟩⟩
  · rw [← extractLsb'_eq_ofNat_bits]
    exact decode_of_requireZero (by rw [decode, fieldOpc_of_bits h]; rfl)
  · rw [← extractLsb'_eq_ofNat_bits]
    exact decode_of_requireZero (by rw [decode, fieldOpc_of_bits h]; rfl)
  · have hexpEntry {idx : BitVec 9} := exec_gfExp_default hexp (idx := idx)
    have hlogEntry {x : Byte} := exec_gfLog_default hlog (x := x)
    exact ⟨hexpEntry 0x1D (by decide) (by decide), hexpEntry 0x01 (by decide) (by decide),
      hexpEntry 0x8E (by decide) ((gfTablesOk_default.exp_mod (by decide)).trans (by decide)),
      hlogEntry 0 (by decide) (by decide), hlogEntry 1 (by decide) (by decide), hlogEntry 206 (by decide) (by decide),
      hlogEntry 254 (by decide) (by decide)⟩

end Sys2Proof.Machine
end

section
/-! PROOFS. The symbol vector commands: their words (spec/30_encoding.md R84, R86, R87), the common checks of their operands, and
the bytes that each stores (40_gf256.md R120 to R125). -/

namespace Sys2Proof.Machine
open Sys2Proof.Claims

/-! ### Format V -/

theorem requireBanks_eq_ok {i j : Instr} : requireBanks i = .ok j ↔ i.wellFormed = true ∧ i = j := by
  unfold requireBanks
  split <;> simp [*]

theorem bankCodeOk_bankAt {w : Word} {lo : Nat} : bankCodeOk (bankAt w lo) = true ↔ bits w lo 4 < 5 := by
  have hlt : bits w lo 4 < 16 := Nat.mod_lt _ (by decide)
  rw [← Bool.not_eq_false, bankCodeOk_eq_false, bankAt, BitVec.toNat_ofNat, Nat.mod_eq_of_lt hlt, Nat.not_le]

/-- A field is zero where both its parts are. -/
theorem bits_add_eq_zero_iff {w : Word} {lo m n : Nat} :
    bits w lo (m + n) = 0 ↔ bits w (lo + m) n = 0 ∧ bits w lo m = 0 := by
  rw [bits, bits, bits, Nat.pow_add 2 m, Nat.mod_mul, Nat.pow_add 2 lo, ← Nat.div_div_eq_div_mul]
  simp [and_comm]

/-- An opcode whose words decode where the bits in `zero` are zero, and then as R87's bank checks have it. -/
theorem encodedV_of_decode {opc : Nat} {zero : List (Nat × Nat)} {banks : List Nat} {mk : Word → Instr}
    (hzero : ∀ w, fieldOpc w = BitVec.ofNat 8 opc → ∀ j,
      decode w = .ok j ↔ (∀ z ∈ zero, bits w z.1 z.2 = 0) ∧ requireBanks (mk w) = .ok j)
    (hbanks : ∀ w, (mk w).wellFormed = true ↔ ∀ p ∈ banks, bits w p 4 < 5) : EncodedV opc zero banks mk := by
  intro w hopc
  obtain ⟨haccept, hrefuse⟩ := decode_of_iff fun j => by
    rw [hzero w (fieldOpc_of_bits hopc), requireBanks_eq_ok, hbanks, ← and_assoc]
  exact ⟨fun hz hp => haccept ⟨hz, hp⟩, hrefuse⟩

section
variable {w : Word}

theorem fieldDb_eq_bankAt : fieldDb w = bankAt w 8 := extractLsb'_eq_ofNat_bits 8 4

theorem fieldSb_eq_bankAt : fieldSb w = bankAt w 12 := extractLsb'_eq_ofNat_bits 12 4

theorem fieldBeta_eq_betaAt : fieldBeta w = betaAt w := extractLsb'_eq_ofNat_bits 16 8

end

/-- Format V with both bank codes and no BETA: VXOR and VCOPY (R121, R124). -/
theorem encodedV_of_noBeta {opc : Nat} {mk : BankCode → BankCode → Instr}
    (hd : ∀ w, fieldOpc w = BitVec.ofNat 8 opc →
      decode w = requireZero (w.extractLsb' 16 16) (requireBanks (mk (fieldDb w) (fieldSb w))))
    (hmk : ∀ db sb, (mk db sb).wellFormed = (bankCodeOk db && bankCodeOk sb)) :
    EncodedV opc [(24, 8), (16, 8)] [8, 12] (fun w => mk (bankAt w 8) (bankAt w 12)) := by
  refine encodedV_of_decode (fun w hopc j => ?_) fun w => by simp [hmk, bankCodeOk_bankAt]
  rw [hd w hopc, requireZero_eq_ok, extractLsb'_eq_zero_iff, bits_add_eq_zero_iff (m := 8) (n := 8), fieldDb_eq_bankAt,
    fieldSb_eq_bankAt]
  simp

/-- The words of VXOR (R121). -/
theorem encodedV_vxor : EncodedV 0x10 [(24, 8), (16, 8)] [8, 12] (fun w => .vxor (bankAt w 8) (bankAt w 12)) :=
  encodedV_of_noBeta (fun w hopc => by rw [decode, hopc]; rfl) fun _ _ => rfl

/-- The words of VCOPY (R124). -/
theorem encodedV_vcopy : EncodedV 0x13 [(24, 8), (16, 8)] [8, 12] (fun w => .vcopy (bankAt w 8) (bankAt w 12)) :=
  encodedV_of_noBeta (fun w hopc => by rw [decode, hopc]; rfl) fun _ _ => rfl

/-- The words of VSCALE (R122). -/
theorem encodedV_vscale : EncodedV 0x11 [(24, 8), (12, 4)] [8] (fun w => .vscale (bankAt w 8) (betaAt w)) := by
  refine encodedV_of_decode (fun w hopc j => ?_) fun w => by simp [Instr.wellFormed, bankCodeOk_bankAt]
  have hd : decode w =
      requireZero (fieldTop w) (requireZero (fieldSb w) (requireBanks (.vscale (fieldDb w) (fieldBeta w)))) := by
    rw [decode, hopc]
    rfl
  rw [hd, requireZero_eq_ok, requireZero_eq_ok, fieldTop, fieldSb, extractLsb'_eq_zero_iff, extractLsb'_eq_zero_iff,
    fieldDb_eq_bankAt, fieldBeta_eq_betaAt]
  simp [and_assoc]

/-- The words of VAXPY (R123). -/
theorem encodedV_vaxpy :
    EncodedV 0x12 [(24, 8)] [8, 12] (fun w => .vaxpy (bankAt w 8) (bankAt w 12) (betaAt w)) := by
  refine encodedV_of_decode (fun w hopc j => ?_) fun w => by simp [Instr.wellFormed, bankCodeOk_bankAt]
  have hd : decode w = requireZero (fieldTop w) (requireBanks (.vaxpy (fieldDb w) (fieldSb w) (fieldBeta w))) := by
    rw [decode, hopc]
    rfl
  rw [hd, requireZero_eq_ok, fieldTop, extractLsb'_eq_zero_iff, fieldDb_eq_bankAt, fieldSb_eq_bankAt, fieldBeta_eq_betaAt]
  simp

/-- The words of VZERO (R125). -/
theorem encodedV_vzero : EncodedV 0x14 [(24, 8), (16, 8), (12, 4)] [8] (fun w => .vzero (bankAt w 8)) := by
  refine encodedV_of_decode (fun w hopc j => ?_) fun w => by simp [Instr.wellFormed, bankCodeOk_bankAt]
  have hd : decode w = requireZero (w.extractLsb' 12 20) (requireBanks (.vzero (fieldDb w))) := by
    rw [decode, hopc]
    rfl
  rw [hd, requireZero_eq_ok, extractLsb'_eq_zero_iff, bits_add_eq_zero_iff (m := 4) (n := 16),
    bits_add_eq_zero_iff (lo := 16) (m := 8) (n := 8), fieldDb_eq_bankAt]
  simp [and_assoc]

/-! ### The common checks (R120; 30_encoding.md R87) -/

/-- The codes 5 to 15 are reserved (10_state.md R44). -/
theorem bankOf_of_reserved {c : BankCode} (h : 5 ≤ c.toNat) : bankOf c = none := by
  unfold bankOf
  split
  case h_6 => rfl
  all_goals exact absurd h (by decide)

theorem failWith_eq_failState (s : State) (c : FailCode) : failWith s c = .next (failState s c.code) := rfl

section
variable {s : State} {db sb : BankCode}

theorem dstOperand_of_reserved (hd : 5 ≤ db.toNat) : dstOperand db s = .error .illegalCommand := by
  rw [dstOperand, bankOf_of_reserved hd]

theorem dstOperand_of_unconfigured (hd : db.toNat < 5) (hv : s.status.cfgValid = false) :
    dstOperand db s = .error .notConfigured := by
  obtain ⟨rd, hrd, -⟩ := bankOf_of_lt hd
  rw [dstOperand, hrd]
  exact if_pos (by simp [hv])

theorem dstOperand_of_beyond (hd : db.toNat < 5) (hv : s.status.cfgValid = true)
    (h0 : rowsOf s.build db.toNat ≤ argn s 0) : dstOperand db s = .error .range := by
  obtain ⟨rd, hrd, hrows, -⟩ := bankOf_of_lt hd
  rw [dstOperand, hrd]
  dsimp only
  rw [if_neg (by simp [hv]), if_pos (by rw [hrows]; exact h0)]

theorem dstSrcOperands_of_reserved (h : 5 ≤ db.toNat ∨ 5 ≤ sb.toNat) :
    dstSrcOperands db sb s = .error .illegalCommand := by
  unfold dstSrcOperands
  rcases h with hd | hs
  · rw [bankOf_of_reserved hd]
  · rw [bankOf_of_reserved hs]
    cases bankOf db <;> rfl

theorem dstSrcOperands_of_unconfigured (hd : db.toNat < 5) (hs : sb.toNat < 5) (hv : s.status.cfgValid = false) :
    dstSrcOperands db sb s = .error .notConfigured := by
  obtain ⟨rd, hrd, -⟩ := bankOf_of_lt hd
  obtain ⟨rs, hrs, -⟩ := bankOf_of_lt hs
  rw [dstSrcOperands, hrd, hrs]
  exact if_pos (by simp [hv])

theorem dstSrcOperands_of_beyond (hd : db.toNat < 5) (hs : sb.toNat < 5) (hv : s.status.cfgValid = true)
    (h : rowsOf s.build db.toNat ≤ argn s 0 ∨ rowsOf s.build sb.toNat ≤ argn s 1) :
    dstSrcOperands db sb s = .error .range := by
  obtain ⟨rd, hrd, hdrows, -⟩ := bankOf_of_lt hd
  obtain ⟨rs, hrs, hsrows, -⟩ := bankOf_of_lt hs
  rw [← hdrows, ← hsrows] at h
  rw [dstSrcOperands, hrd, hrs]
  dsimp only
  rw [if_neg (by simp [hv])]
  split
  · rfl
  · rename_i h0
    exact if_pos (h.resolve_left h0)

end

/-- The failures of the common checks of a vector command with these bank codes, in their order. -/
def FailsInOrder (i : Instr) (s : State) (d : Nat) (src : Option Nat) : Prop :=
  ((5 ≤ d ∨ ∃ x ∈ src, 5 ≤ x) → exec i s = .next (failState s 0x01)) ∧
  (d < 5 → (∀ x ∈ src, x < 5) → s.status.cfgValid = false → exec i s = .next (failState s 0x02)) ∧
  (d < 5 → (∀ x ∈ src, x < 5) → s.status.cfgValid = true →
    (rowsOf s.build d ≤ argn s 0 ∨ ∃ x ∈ src, rowsOf s.build x ≤ argn s 1) → exec i s = .next (failState s 0x04))

section
variable {s : State} {i : Instr} {db sb : BankCode}

/-- A command that fails as the check of its destination does. -/
theorem FailsInOrder.of_dstOperand (h : ∀ c, dstOperand db s = .error c → exec i s = failWith s c) :
    FailsInOrder i s db.toNat none := by
  simp only [FailsInOrder, Option.mem_def, reduceCtorEq, false_and, exists_false, or_false, false_imp_iff, implies_true,
    true_imp_iff]
  exact ⟨fun hd => h _ (dstOperand_of_reserved hd), fun hd hv => h _ (dstOperand_of_unconfigured hd hv),
    fun hd hv h0 => h _ (dstOperand_of_beyond hd hv h0)⟩

/-- A command that fails as the check of its destination and its source does. -/
theorem FailsInOrder.of_dstSrcOperands (h : ∀ c, dstSrcOperands db sb s = .error c → exec i s = failWith s c) :
    FailsInOrder i s db.toNat (some sb.toNat) := by
  simp only [FailsInOrder, Option.mem_def, Option.some.injEq, exists_eq_left', forall_eq']
  exact ⟨fun hcode => h _ (dstSrcOperands_of_reserved hcode),
    fun hd hs hv => h _ (dstSrcOperands_of_unconfigured hd hs hv),
    fun hd hs hv hrow => h _ (dstSrcOperands_of_beyond hd hs hv hrow)⟩

theorem failsInOrder_of_vectorBanks {d : Nat} {src : Option Nat} (h : vectorBanks i = some (d, src)) :
    FailsInOrder i s d src := by
  cases i with
  | vxor db sb =>
    cases h
    exact .of_dstSrcOperands fun c hc => by rw [exec, execVxor, hc]
  | vaxpy db sb beta =>
    cases h
    exact .of_dstSrcOperands fun c hc => by rw [exec, execVaxpy, hc]
  | vcopy db sb =>
    cases h
    exact .of_dstSrcOperands fun c hc => by rw [exec, execVcopy, hc]
  | vscale db beta =>
    cases h
    exact .of_dstOperand fun c hc => by rw [exec, execVscale, hc]
  | vzero db =>
    cases h
    exact .of_dstOperand fun c hc => by rw [exec, execVzero, hc]
  | _ => cases h

end

/-- Settles O33. -/
theorem vectorChecks : Obligations.VectorChecks := by
  unfold Obligations.VectorChecks
  exact ⟨encodedV_vxor, encodedV_vscale, encodedV_vaxpy, encodedV_vcopy, encodedV_vzero,
    fun i s d src h => failsInOrder_of_vectorBanks h⟩

/-! ### Symbols byte by byte -/

/-- n bytes that all hold a value read as these (10_state.md R46). -/
theorem Memory.readBytes_of_valued {m : Memory} {a n : Nat} (h : Valued m a n) :
    m.readBytes a n = some (symbolAt m a n) := by
  obtain ⟨vs, hvs⟩ := Memory.readBytes_isSome h
  have hlen := Memory.length_readBytes hvs
  rw [hvs, Option.some.injEq]
  refine List.ext_getElem (by simp [symbolAt, hlen]) fun k hk _ => ?_
  simp [symbolAt, val, Memory.getElem_readBytes hvs (hlen ▸ hk), List.getElem?_eq_getElem hk]

/-- A store of n bytes changes no others (20_memory.md R67). -/
theorem storesOnly_writeBytes_map_range (m : Memory) (a n : Nat) (f : Nat → Byte) :
    StoresOnly m (m.writeBytes a ((List.range n).map f)) a n f := by
  intro c
  rw [Memory.read_writeBytes, List.length_map, List.length_range]
  split
  · rename_i hc
    rw [List.getElem?_map, List.getElem?_range (by omega), Option.map_some]
  · rfl

section
variable (n : Nat) (f g : Nat → Byte) (b : Build) (beta : Byte)

theorem xorBytes_map_range :
    xorBytes ((List.range n).map f) ((List.range n).map g) = (List.range n).map fun k => f k ^^^ g k := by
  rw [xorBytes, List.zipWith_map, List.zipWith_self]
  rfl

theorem scaleBytes_map_range :
    scaleBytes b beta ((List.range n).map f) = (List.range n).map fun k => gfMul b beta (f k) := List.map_map

theorem axpyBytes_map_range : axpyBytes b ((List.range n).map f) beta ((List.range n).map g) =
    (List.range n).map fun k => f k ^^^ gfMul b beta (g k) := by
  rw [axpyBytes, scaleBytes_map_range, xorBytes_map_range]

theorem zeroBytes_eq_map_range : zeroBytes n = (List.range n).map fun _ => 0 := by
  rw [zeroBytes, List.map_const', List.length_range]

end

/-! ### The results (R121 to R125) -/

/-- The command completes with the T bytes from `a` on holding `f`, and nothing else changed. -/
def StoresRow (i : Instr) (s : State) (a : Nat) (f : Nat → Byte) : Prop :=
  ∃ m, exec i s = .next { s with mem := m, status := doneStatus s.status } ∧ StoresOnly s.mem m a (tOf s) f

section
variable {s : State} {i : Instr} {db sb : BankCode} {dst src : Nat}

theorem StoresRow.of_finish {f : Nat → Byte}
    (h : exec i s = finish (s.writeSymbol dst ((List.range (tOf s)).map f))) : StoresRow i s dst f :=
  ⟨_, h, storesOnly_writeBytes_map_range s.mem dst (tOf s) f⟩

theorem State.readSymbol_of_valued (h : Valued s.mem src (tOf s)) :
    s.readSymbol src = some (symbolAt s.mem src (tOf s)) := Memory.readBytes_of_valued h

theorem vxor_storesRow (hop : dstSrcOperands db sb s = .ok (dst, src)) (hd : Valued s.mem dst (tOf s))
    (hs : Valued s.mem src (tOf s)) :
    StoresRow (.vxor db sb) s dst fun k => val s.mem (dst + k) ^^^ val s.mem (src + k) := by
  apply StoresRow.of_finish
  rw [exec, execVxor, hop, ← xorBytes_map_range]
  dsimp only
  rw [State.readSymbol_of_valued hd, State.readSymbol_of_valued hs, orNoValue_some, orNoValue_some]
  rfl

theorem vaxpy_storesRow (hop : dstSrcOperands db sb s = .ok (dst, src)) (hd : Valued s.mem dst (tOf s))
    (hs : Valued s.mem src (tOf s)) (beta : Byte) :
    StoresRow (.vaxpy db sb beta) s dst fun k => val s.mem (dst + k) ^^^ gfMul s.build beta (val s.mem (src + k)) := by
  apply StoresRow.of_finish
  rw [exec, execVaxpy, hop, ← axpyBytes_map_range]
  dsimp only
  rw [State.readSymbol_of_valued hd, State.readSymbol_of_valued hs, orNoValue_some, orNoValue_some]
  rfl

theorem vcopy_storesRow (hop : dstSrcOperands db sb s = .ok (dst, src)) (hs : Valued s.mem src (tOf s)) :
    StoresRow (.vcopy db sb) s dst fun k => val s.mem (src + k) := by
  apply StoresRow.of_finish
  rw [exec, execVcopy, hop]
  dsimp only
  rw [State.readSymbol_of_valued hs, orNoValue_some]
  rfl

theorem vscale_storesRow (hop : dstOperand db s = .ok dst) (hd : Valued s.mem dst (tOf s)) (beta : Byte) :
    StoresRow (.vscale db beta) s dst fun k => gfMul s.build beta (val s.mem (dst + k)) := by
  apply StoresRow.of_finish
  rw [exec, execVscale, hop, ← scaleBytes_map_range]
  dsimp only
  rw [State.readSymbol_of_valued hd, orNoValue_some]
  rfl

theorem vzero_storesRow (hop : dstOperand db s = .ok dst) : StoresRow (.vzero db) s dst fun _ => 0 := by
  apply StoresRow.of_finish
  rw [exec, execVzero, hop, ← zeroBytes_eq_map_range]
  rfl

end

/-- Settles O34. -/
theorem vxorAndVaxpy : Obligations.VxorAndVaxpy := by
  unfold Obligations.VxorAndVaxpy
  intro s db sb beta hd hs hv h0 h1 hdst hsrc
  have hop := dstSrcOperands_of_checks hd hs hv h0 h1
  exact ⟨vxor_storesRow hop hdst hsrc, vaxpy_storesRow hop hdst hsrc beta⟩

/-- Settles O35. -/
theorem vscaleVzeroAndVcopy : Obligations.VscaleVzeroAndVcopy := by
  unfold Obligations.VscaleVzeroAndVcopy
  refine ⟨fun s db beta hd hv h0 => ?_, fun s db sb hd hs hv h0 h1 hsrc => ?_⟩
  · have hop := dstOperand_of_checks hd hv h0
    exact ⟨fun hdst => vscale_storesRow hop hdst beta, vzero_storesRow hop⟩
  · exact vcopy_storesRow (dstSrcOperands_of_checks hd hs hv h0 h1) hsrc

end Sys2Proof.Machine
end

section
/-! PROOFS. The table commands and the configuration of a block (spec/41_tables.md R140 to R152): the searches in SIT_ROM and
DEG_ROM, the smallest prime from n on, and what SIT_CEIL, SIT_LOOKUP, PARTITION, RAND, DEG and BLK_CONFIG answer. -/

namespace Sys2Proof.Machine
open Sys2Proof.Claims

/-- An opcode that decodes by format N (30_encoding.md R81). -/
theorem encodedN_of_decode {opc : Nat} {i : Instr} (h : ∀ w, fieldOpc w = BitVec.ofNat 8 opc → decode w = formatN w i) :
    EncodedN opc i :=
  fun w hopc => decode_of_requireZero (h w (fieldOpc_of_bits hopc))

/-! ### The tables of a legal build -/

section
variable {b : Build} (hb : BuildOk b)
include hb

theorem BuildOk.sit : SitOk b.sit := hb.1.2.1

theorem BuildOk.degF : DegOk b.degF := hb.1.2.2.2.1

end

/-! ### The smallest prime from n on (R143) -/

theorem primeCeil_zero : primeCeil 0 = 2 := by decide

theorem primeCeil_prime (n : Nat) : (primeCeil n).Prime := by
  obtain rfl | hn := eq_or_ne n 0
  · exact primeCeil_zero ▸ Nat.prime_two
  · exact (primeCeil_spec hn).1

theorem le_primeCeil (n : Nat) : n ≤ primeCeil n := by
  obtain rfl | hn := eq_or_ne n 0
  · exact Nat.zero_le _
  · exact (primeCeil_spec hn).2.1

/-- A prime beyond the search is beyond 2n, so it is no smaller than the prime of Bertrand's postulate. -/
theorem primeCeil_le {n p : Nat} (hp : p.Prime) (hn : n ≤ p) : primeCeil n ≤ p := by
  obtain rfl | hne := eq_or_ne n 0
  · exact primeCeil_zero ▸ hp.two_le
  · obtain hlt | hge := Nat.lt_or_ge p (n + (n + 2))
    · exact (primeFrom_of_prime hp hn hlt).2.2
    · have hle := (primeCeil_spec hne).2.2
      omega

/-- Settles O40. -/
theorem primeCeilIsTheLeastPrime : Obligations.PrimeCeilIsTheLeastPrime := by
  unfold Obligations.PrimeCeilIsTheLeastPrime
  exact ⟨fun n => ⟨primeCeil_prime n, le_primeCeil n, fun _ => primeCeil_le⟩, primeCeil_zero, by decide, by decide⟩

/-! ### The rows of SIT_ROM (R140, R141; 10_state.md R32) -/

section
variable {sit : List SitRow} {k kp : Nat} {r : SitRow}

theorem sitCeil_eq_none_iff : sitCeil sit k = none ↔ ∀ r ∈ sit, r.kp < k := by
  simp [sitCeil]

theorem sitLookup_eq_none_iff : sitLookup sit kp = none ↔ ∀ r ∈ sit, r.kp ≠ kp := by
  simp [sitLookup]

theorem mem_of_sitLookup (h : sitLookup sit kp = some r) : r ∈ sit ∧ r.kp = kp :=
  ⟨List.mem_of_find?_eq_some h, by simpa using List.find?_some h⟩

variable (hrise : sit.Pairwise fun r t => r.kp < t.kp)
include hrise

/-- Rows before the one found are below K, and rows behind it are above it. -/
theorem least_of_sitCeil (h : sitCeil sit k = some kp) :
    k ≤ kp ∧ (∃ r ∈ sit, r.kp = kp) ∧ ∀ q ∈ sit, k ≤ q.kp → kp ≤ q.kp := by
  obtain ⟨r, hr, rfl⟩ := Option.map_eq_some_iff.1 h
  obtain ⟨hk, before, behind, rfl, hbefore⟩ := List.find?_eq_some_iff_append.1 hr
  refine ⟨by simpa using hk, ⟨r, by simp, rfl⟩, fun q hq hkq => ?_⟩
  rcases List.mem_append.1 hq with hq | hq
  · exact absurd hkq (by simpa using hbefore q hq)
  · rcases List.mem_cons.1 hq with rfl | hq
    · exact Nat.le_refl _
    · exact (List.rel_of_pairwise_cons (List.pairwise_append.1 hrise).2.1 hq).le

theorem sitCeil_eq_some_of_least (hr : r ∈ sit) (hk : k ≤ r.kp) (hleast : ∀ q ∈ sit, k ≤ q.kp → r.kp ≤ q.kp) :
    sitCeil sit k = some r.kp := by
  cases hc : sitCeil sit k with
  | none => exact absurd (sitCeil_eq_none_iff.1 hc r hr) (Nat.not_lt_of_le hk)
  | some kp =>
    obtain ⟨hkp, ⟨q, hq, rfl⟩, hle⟩ := least_of_sitCeil hrise hc
    rw [Nat.le_antisymm (hle r hr hk) (hleast q hq hkp)]

/-- Two rows of SIT_ROM do not share their K'. -/
theorem sitRow_ext {q : SitRow} (hr : r ∈ sit) (hq : q ∈ sit) (h : r.kp = q.kp) : r = q := by
  obtain ⟨m, hm, rfl⟩ := List.mem_iff_getElem.1 hr
  obtain ⟨n, hn, rfl⟩ := List.mem_iff_getElem.1 hq
  have rises := List.pairwise_iff_getElem.1 hrise
  obtain hlt | rfl | hgt := Nat.lt_trichotomy m n
  · exact absurd h (rises m n hm hn hlt).ne
  · rfl
  · exact absurd h (rises n m hn hm hgt).ne'

theorem sitLookup_of_mem (hr : r ∈ sit) : sitLookup sit r.kp = some r := by
  cases hl : sitLookup sit r.kp with
  | none => exact absurd rfl (sitLookup_eq_none_iff.1 hl r hr)
  | some q =>
    obtain ⟨hq, hkp⟩ := mem_of_sitLookup hl
    rw [sitRow_ext hrise hq hr hkp]

end

section
variable {sit : List SitRow} (hsit : SitOk sit)
include hsit

theorem SitOk.rises : sit.Pairwise fun r t => r.kp < t.kp := hsit.1

theorem SitOk.exists_first : ∃ r ∈ sit, r.kp = 10 ∧ ∀ q ∈ sit, 10 ≤ q.kp := by
  obtain ⟨hrise, hhead, -⟩ := hsit
  obtain ⟨r, hr, hkp⟩ := Option.map_eq_some_iff.1 hhead
  obtain ⟨rest, rfl⟩ := List.head?_eq_some_iff.1 hr
  refine ⟨r, List.mem_cons_self, hkp, fun q hq => ?_⟩
  rcases List.mem_cons.1 hq with rfl | hq
  · exact hkp.ge
  · exact hkp ▸ (List.rel_of_pairwise_cons hrise hq).le

theorem SitOk.exists_last : ∃ r ∈ sit, r.kp = 56403 ∧ ∀ q ∈ sit, q.kp ≤ 56403 := by
  obtain ⟨hrise, -, hlast, -⟩ := hsit
  obtain ⟨r, hr, hkp⟩ := Option.map_eq_some_iff.1 hlast
  obtain ⟨rest, rfl⟩ := List.getLast?_eq_some_iff.1 hr
  refine ⟨r, by simp, hkp, fun q hq => ?_⟩
  rcases List.mem_append.1 hq with hq | hq
  · exact hkp ▸ ((List.pairwise_append.1 hrise).2.2 q hq r List.mem_cons_self).le
  · exact hkp ▸ (congrArg SitRow.kp (List.mem_singleton.1 hq)).le

end

/-! ### SIT_CEIL and SIT_LOOKUP (R145, R146) -/

section
variable {s : State}

theorem State.arg_eq_argn (s : State) (n : Fin 8) : s.arg n = argn s n := rfl

theorem exec_sitCeil_fails (h : argn s 0 = 0 ∨ ∀ r ∈ s.build.sit, r.kp < argn s 0) :
    exec .sitCeil s = .next (failState s 0x10) := by
  show execSitCeil s = _
  rw [execSitCeil, s.arg_eq_argn]
  split
  · rfl
  · rename_i h0
    rw [sitCeil_eq_none_iff.2 (h.resolve_left h0)]
    rfl

theorem exec_sitCeil_of_least (hb : BuildOk s.build) {r : SitRow} (hr : r ∈ s.build.sit) (hpos : 1 ≤ argn s 0)
    (hk : argn s 0 ≤ r.kp) (hleast : ∀ q ∈ s.build.sit, argn s 0 ≤ q.kp → r.kp ≤ q.kp) :
    exec .sitCeil s = .next (res0State s (word r.kp)) := by
  show execSitCeil s = _
  rw [execSitCeil, s.arg_eq_argn, if_neg (Nat.ne_of_gt hpos), sitCeil_eq_some_of_least hb.sit.rises hr hk hleast]
  rfl

theorem exec_sitCeil_of_le_last (hb : BuildOk s.build) (hpos : 1 ≤ argn s 0) (hle : argn s 0 ≤ 56403) :
    ∃ kp, exec .sitCeil s = .next (res0State s (word kp)) ∧ argn s 0 ≤ kp ∧ kp ≤ 56403 := by
  obtain ⟨last, hlast, hkp, hmax⟩ := hb.sit.exists_last
  cases hc : sitCeil s.build.sit (argn s 0) with
  | none =>
    have hbelow := sitCeil_eq_none_iff.1 hc last hlast
    omega
  | some kp =>
    obtain ⟨hk, ⟨r, hr, rfl⟩, hleast⟩ := least_of_sitCeil hb.sit.rises hc
    exact ⟨r.kp, exec_sitCeil_of_least hb hr hpos hk hleast, hk, hmax r hr⟩

theorem exec_sitLookup_miss (h : ∀ r ∈ s.build.sit, r.kp ≠ argn s 0) :
    exec .sitLookup s = .next (failState s 0x10) := by
  show execSitLookup s = _
  rw [execSitLookup, s.arg_eq_argn, sitLookup_eq_none_iff.2 h]
  rfl

theorem exec_sitLookup_of_mem (hb : BuildOk s.build) {r : SitRow} (hr : r ∈ s.build.sit) (hkp : r.kp = argn s 0) :
    exec .sitLookup s = .next (res4State s r.j r.s r.h r.w) := by
  show execSitLookup s = _
  rw [execSitLookup, s.arg_eq_argn, ← hkp, sitLookup_of_mem hb.sit.rises hr]
  rfl

end

/-- Settles O37. -/
theorem sitCeilAndSitLookup : Obligations.SitCeilAndSitLookup := by
  unfold Obligations.SitCeilAndSitLookup
  refine ⟨⟨encodedN_of_decode fun w h => by rw [decode, h]; rfl, fun s => ⟨fun h => exec_sitCeil_fails (.inl h),
    fun h => exec_sitCeil_fails (.inr h), fun r hr hb => exec_sitCeil_of_least hb hr, fun hb h => ?_, fun hb hpos hle => ?_,
    exec_sitCeil_of_le_last⟩⟩, encodedN_of_decode fun w h => by rw [decode, h]; rfl, fun s => ⟨exec_sitLookup_miss,
    fun r hr hb => exec_sitLookup_of_mem hb hr⟩⟩
  · obtain ⟨-, -, -, hmax⟩ := hb.sit.exists_last
    exact exec_sitCeil_fails (h.imp_right fun hlast r hr => (hmax r hr).trans_lt hlast)
  · obtain ⟨r, hr, hkp, hmin⟩ := hb.sit.exists_first
    rw [exec_sitCeil_of_least hb hr hpos (hkp ▸ hle) fun q hq _ => hkp ▸ hmin q hq, hkp]
    rfl

/-! ### PARTITION (R142, R147) -/

section
variable {i j : Nat}

theorem ceilDiv_of_mod_eq_zero (hj : 0 < j) (h : i % j = 0) : ceilDiv i j = i / j := by
  have hi := Nat.div_add_mod i j
  rw [ceilDiv, Nat.div_eq_iff hj, Nat.mul_comm]
  omega

theorem ceilDiv_of_mod_ne_zero (hj : 0 < j) (h : i % j ≠ 0) : ceilDiv i j = i / j + 1 := by
  have hi := Nat.div_add_mod i j
  have hmod := Nat.mod_lt i hj
  rw [ceilDiv, Nat.div_eq_iff hj, Nat.add_mul, Nat.mul_comm]
  omega

/-- The first J - (I mod J) parts have the size I div J, and the others the size ceil(I/J). -/
theorem partition_sum (hj : 0 < j) : i / j * (j - i % j) + ceilDiv i j * (i % j) = i := by
  have hmod := Nat.mod_lt i hj
  by_cases h : i % j = 0
  · rw [h, Nat.mul_zero, Nat.sub_zero, Nat.add_zero]
    exact Nat.div_mul_cancel (Nat.dvd_of_mod_eq_zero h)
  · calc i / j * (j - i % j) + ceilDiv i j * (i % j)
        = i / j * (j - i % j + i % j) + i % j := by rw [ceilDiv_of_mod_ne_zero hj h]; ring
      _ = i := by rw [Nat.sub_add_cancel hmod.le, Nat.div_add_mod']

theorem ceilDiv_eq_or (hj : 0 < j) : ceilDiv i j = i / j ∨ ceilDiv i j = i / j + 1 := by
  by_cases h : i % j = 0
  · exact .inl (ceilDiv_of_mod_eq_zero hj h)
  · exact .inr (ceilDiv_of_mod_ne_zero hj h)

theorem ceilDiv_le (hj : 0 < j) : ceilDiv i j ≤ i := by
  rw [ceilDiv, Nat.div_le_iff_le_mul_add_pred hj]
  have hi := Nat.le_mul_of_pos_left i hj
  omega

theorem partitionOf_eq : partitionOf i j = (i / j, ceilDiv i j, j - i % j, i % j) := by
  rw [partitionOf, ← Nat.mod_eq_sub_div_mul]

end

section
variable {s : State}

theorem argn_lt (s : State) (n : Fin 8) : argn s n < 2 ^ 32 := (s.args[n]).isLt

theorem exec_partition (hj : argn s 1 ≠ 0) :
    exec .partition s = .next (res4State s (argn s 0 / argn s 1) (ceilDiv (argn s 0) (argn s 1))
      (argn s 1 - argn s 0 % argn s 1) (argn s 0 % argn s 1)) := by
  show execPartition s = _
  rw [execPartition, s.arg_eq_argn, s.arg_eq_argn, if_neg hj, partitionOf_eq]
  rfl

theorem res4State_res {r0 r1 r2 r3 : Nat} (h0 : r0 < 2 ^ 32) (h1 : r1 < 2 ^ 32) (h2 : r2 < 2 ^ 32) (h3 : r3 < 2 ^ 32) :
    let t := res4State s r0 r1 r2 r3
    t.res[0].toNat = r0 ∧ t.res[1].toNat = r1 ∧ t.res[2].toNat = r2 ∧ t.res[3].toNat = r3 := by
  rw [← toNat_word h0, ← toNat_word h1, ← toNat_word h2, ← toNat_word h3]
  simp [res4State]

end

/-- Settles O38: every result fits its register, so the laws of the four numbers are laws of the registers. -/
theorem partitionResult : Obligations.PartitionResult := by
  unfold Obligations.PartitionResult
  refine ⟨encodedN_of_decode fun w h => by rw [decode, h]; rfl, fun s => ⟨fun h => if_pos h, fun h => ⟨exec_partition h,
    fun t ht => ?_⟩⟩⟩
  have hj := Nat.pos_of_ne_zero h
  have hi32 := argn_lt s 0
  have hj32 := argn_lt s 1
  have hmod := Nat.mod_lt (argn s 0) hj
  rw [exec_partition h] at ht
  obtain rfl := Host.Outcome.next.inj ht
  obtain ⟨h0, h1, h2, h3⟩ := res4State_res (s := s) ((Nat.div_le_self _ _).trans_lt hi32) ((ceilDiv_le hj).trans_lt hi32)
    ((Nat.sub_le _ _).trans_lt hj32) (hmod.trans hj32)
  rw [h0, h1, h2, h3]
  exact ⟨partition_sum hj, Nat.sub_add_cancel hmod.le, ceilDiv_eq_or hj, hmod, Nat.sub_pos_of_lt hmod⟩

/-! ### RAND (R148, R149) -/

theorem randOf_eq_randRule (b : Build) (y i m : Nat) : randOf b y i m = randRule b y i m := by
  simp only [randOf, randRule, randEntry, BitVec.toNat_xor]

theorem exec_rand {s : State} (hi : argn s 1 < 256) (hm : argn s 2 ≠ 0) :
    exec .rand s = .next (res0State s (word (randRule s.build (argn s 0) (argn s 1) (argn s 2)))) := by
  rw [← randOf_eq_randRule]
  exact if_neg (not_or.2 ⟨Nat.not_le_of_lt hi, hm⟩)

/-! ### DEG (R150, R151) -/

section
variable {b : Build} (hdeg : DegOk b.degF) {v j : Nat}
include hdeg

theorem DegOk.first : b.degF.getD 0 0 = 0 := by
  obtain ⟨hlen, hfirst, -⟩ := hdeg
  rwa [List.getD_eq_getElem _ _ (by omega)] at hfirst ⊢

theorem DegOk.last : b.degF.getD 30 0 = 2 ^ 20 := hdeg.2.2.1

theorem DegOk.lt_last (hj : j < 30) : b.degF.getD j 0 < 2 ^ 20 := by
  obtain ⟨hlen, -, hlast, hrise⟩ := hdeg
  rw [← hlast, List.getD_eq_getElem _ _ (by omega), List.getD_eq_getElem _ _ (by omega)]
  exact List.pairwise_iff_getElem.1 hrise j 30 _ _ hj

/-- The first entry above v ends the interval of v. -/
theorem DegOk.exists_interval (hv : v < 2 ^ 20) :
    ∃ j, 1 ≤ j ∧ j ≤ 30 ∧ b.degF.getD (j - 1) 0 ≤ v ∧ v < b.degF.getD j 0 := by
  have habove : ∃ j, v < b.degF.getD j 0 := ⟨30, hdeg.last ▸ hv⟩
  have hpos : 1 ≤ Nat.find habove := by
    rw [Nat.one_le_iff_ne_zero]
    intro h0
    have hspec := Nat.find_spec habove
    rw [h0, hdeg.first] at hspec
    exact Nat.not_lt_zero v hspec
  exact ⟨Nat.find habove, hpos, Nat.find_min' habove (hdeg.last ▸ hv),
    Nat.le_of_not_lt (Nat.find_min habove (Nat.sub_one_lt_of_lt hpos)), Nat.find_spec habove⟩

theorem DegOk.degIndex_spec (hv : v < 2 ^ 20) :
    1 ≤ degIndex b v ∧ degIndex b v ≤ 30 ∧
      b.degF.getD (degIndex b v - 1) 0 ≤ v ∧ v < b.degF.getD (degIndex b v) 0 := by
  rw [degIndex]
  cases hf : (List.range' 1 30).find? fun j => b.degF.getD (j - 1) 0 ≤ v && v < b.degF.getD j 0 with
  | none =>
    obtain ⟨j, hpos, hle, hlo, hhi⟩ := hdeg.exists_interval hv
    have hmiss := List.find?_eq_none.1 hf j (List.mem_range'_1.2 ⟨hpos, by omega⟩)
    exact absurd (by rw [decide_eq_true hlo, decide_eq_true hhi]; rfl) hmiss
  | some j =>
    have hmem := List.mem_range'_1.1 (List.mem_of_find?_eq_some hf)
    have hin := List.find?_some hf
    rw [Bool.and_eq_true, decide_eq_true_iff, decide_eq_true_iff] at hin
    exact ⟨hmem.1, by simp only [Option.getD_some]; omega, hin⟩

end

theorem exec_deg {s : State} (hv : argn s 0 < 2 ^ 20) (hw : 3 ≤ argn s 1) :
    exec .deg s = .next (res0State s (word (degOf s.build (argn s 0) (argn s 1)))) :=
  if_neg (not_or.2 ⟨Nat.not_le_of_lt hv, Nat.not_lt_of_le hw⟩)

/-- Settles O39. -/
theorem randAndDeg : Obligations.RandAndDeg := by
  unfold Obligations.RandAndDeg
  refine ⟨⟨encodedN_of_decode fun w h => by rw [decode, h]; rfl, fun s => ⟨fun h => if_pos h, fun hi hm =>
    ⟨exec_rand hi hm, Nat.mod_lt _ (Nat.pos_of_ne_zero hm), fun h1 => ?_⟩⟩⟩,
    encodedN_of_decode fun w h => by rw [decode, h]; rfl, fun s => ⟨fun h => if_pos h, fun hb hv hw => ?_⟩⟩
  · rw [exec_rand hi hm, h1, randRule, Nat.mod_one]
    rfl
  · obtain ⟨hpos, hle, hlo, hhi⟩ := hb.degF.degIndex_spec hv
    refine ⟨degIndex s.build (argn s 0), hpos, hle, hlo, hhi, exec_deg hv hw, by omega, by omega, by omega, fun htop => ?_⟩
    by_contra hne
    have hlast := hb.degF.lt_last (Nat.lt_of_le_of_ne hle hne)
    omega

/-! ### BLK_CONFIG (R144, R152) -/

theorem rowAdmissible_iff {r : SitRow} :
    rowAdmissible r = true ↔ 1 ≤ r.s ∧ 2 ≤ r.h ∧ 3 ≤ r.w ∧ r.s ≤ r.w ∧ r.w ≤ r.kp + r.s := by
  simp [rowAdmissible, and_assoc]

/-- BLK_CONFIG finds the row that the rule names. -/
theorem configRow_eq_some_iff {b : Build} (hb : BuildOk b) {k t : Nat} {r : SitRow} :
    configRow b k t = some r ↔ ConfigRow b k t r := by
  have hrise := hb.sit.rises
  constructor
  · intro h
    obtain ⟨hk, hkMax, ht, htMax, hceil, hlookup, hadm, hl⟩ := configRow_some h
    obtain ⟨hs, hh, hw, hsw, hws⟩ := rowAdmissible_iff.1 hadm
    obtain ⟨hle, -, hleast⟩ := least_of_sitCeil hrise hceil
    exact ⟨hk, hkMax, ht, htMax, (mem_of_sitLookup hlookup).1, hle, hleast, hs, hh, hw, hsw, hws, hl⟩
  · rintro ⟨hk, hkMax, ht, htMax, hr, hle, hleast, hs, hh, hw, hsw, hws, hl⟩
    rw [configRow, if_neg (by omega), sitCeil_eq_some_of_least hrise hr hle hleast]
    dsimp only
    rw [sitLookup_of_mem hrise hr]
    exact if_pos ⟨rowAdmissible_iff.2 ⟨hs, hh, hw, hsw, hws⟩, hl⟩

/-- U = P - H as the source writes it (R144). -/
theorem blockParamsOf_eq (k t : Nat) (r : SitRow) : blockParamsOf k t r =
    { k := word k, t := word t, kp := word r.kp, j := word r.j, s := word r.s, h := word r.h, w := word r.w,
      l := word (r.kp + r.s + r.h), p := word (r.kp + r.s + r.h - r.w),
      p1 := word (primeCeil (r.kp + r.s + r.h - r.w)), u := word (r.kp + r.s - r.w), b := word (r.w - r.s) } := by
  have hu : r.kp + r.s + r.h - r.w - r.h = r.kp + r.s - r.w := by omega
  rw [← hu, blockParamsOf]

/-- Settles O41. -/
theorem blkConfigResult : Obligations.BlkConfigResult := by
  unfold Obligations.BlkConfigResult
  refine ⟨encodedN_of_decode fun w h => by rw [decode, h]; rfl, fun s hb => ⟨fun r hr => ?_, fun hnone => ?_⟩⟩
  · have hrow : configRow s.build (s.arg 0) (s.arg 1) = some r := (configRow_eq_some_iff hb).2 hr
    show execBlkConfig s = _
    rw [execBlkConfig, hrow, ← blockParamsOf_eq]
    rfl
  · have hrow : configRow s.build (s.arg 0) (s.arg 1) = none :=
      Option.eq_none_iff_forall_ne_some.2 fun r hr => hnone r ((configRow_eq_some_iff hb).1 hr)
    show execBlkConfig s = _
    rw [execBlkConfig, hrow]
    rfl

/-! ### The laws of a configured block (R144) -/

/-- Settles O42: no number of the row exceeds L ≤ 65536, and P1 ≤ 2P, so that no register wraps. -/
theorem blockParameterLaws : Obligations.BlockParameterLaws := by
  unfold Obligations.BlockParameterLaws
  intro s hs hv
  have hb := hs.build
  obtain ⟨⟨⟨_, hkMax, _, htMax, hlMax, _⟩, _⟩, _⟩ := hs.build
  obtain ⟨k, t, r, -, -, hrow, hc⟩ := hs.config hv
  obtain ⟨hk1, hk, ht1, ht, -, hkp, -, hs1, hh, hw, hsw, hws, hl⟩ := (configRow_eq_some_iff hb).1 hrow
  have hp1 := (primeCeil_spec (n := r.kp + r.s + r.h - r.w) (by omega)).2.2
  have value {n : Nat} (hn : n ≤ 2 * 65536) : (word n).toNat = n := toNat_word (by omega)
  rw [hc, blockParamsOf_eq]
  dsimp only
  rw [value (n := k) (by omega), value (n := t) (by omega), value (n := r.kp) (by omega), value (n := r.s) (by omega),
    value (n := r.h) (by omega), value (n := r.w) (by omega), value (n := r.kp + r.s + r.h) (by omega),
    value (n := r.kp + r.s + r.h - r.w) (by omega), value (n := primeCeil (r.kp + r.s + r.h - r.w)) (by omega),
    value (n := r.kp + r.s - r.w) (by omega), value (n := r.w - r.s) (by omega)]
  exact ⟨by omega, by omega, by omega, by omega, by omega, by omega, hs1, hh, hw, by omega, primeCeil_prime _, le_primeCeil _,
    fun n => primeCeil_le, hk1, hkp, hk, ht1, ht, hl⟩

end Sys2Proof.Machine
end

section
/-! PROOFS. Tuples and the indices they visit (spec/42_tuple_matrix.md R170 to R176): the LT terms are a walk modulo W, and the
PI terms are the values below P of a walk modulo the prime P1. -/

namespace Sys2Proof.Machine
open Sys2Proof.Claims

/-! ### Walks with a step that is invertible modulo m -/

section
variable {m a b n : Nat}

theorem length_piWalk : (piWalk m a b n).length = n := by simp [piWalk]

/-- A walk from b goes on from b + a. -/
theorem piWalk_succ (hb : b < m) : piWalk m a b (n + 1) = b :: piWalk m a ((b + a) % m) n := by
  have hstep (j : Nat) : (b + (j + 1) * a) % m = ((b + a) % m + j * a) % m := by
    rw [Nat.mod_add_mod, Nat.succ_mul, Nat.add_comm (j * a), Nat.add_assoc]
  simp [piWalk, List.range_succ_eq_map, Nat.mod_eq_of_lt hb, hstep]

theorem take_piWalk {k : Nat} (hk : k ≤ n) : (piWalk m a b n).take k = piWalk m a b k := by
  rw [piWalk, ← List.map_take, List.take_range, Nat.min_eq_left hk, piWalk]

theorem lt_of_mem_piWalk (hm : 0 < m) {x : Nat} (hx : x ∈ piWalk m a b n) : x < m := by
  obtain ⟨j, -, rfl⟩ := List.mem_map.1 hx
  exact Nat.mod_lt _ hm

theorem coprime_of_step (hm : m.Prime) (hpos : 0 < a) (hlt : a < m) : m.Coprime a :=
  Nat.coprime_of_lt_prime hpos.ne' hlt hm

/-- The walk does not come back within m steps (R176). -/
theorem nodup_piWalk (ha : m.Coprime a) (hn : n ≤ m) : (piWalk m a b n).Nodup := by
  refine List.Nodup.map_on (fun i hi j hj hij => ?_) List.nodup_range
  have hmul : i * a ≡ j * a [MOD m] := Nat.ModEq.add_left_cancel' b hij
  rw [List.mem_range] at hi hj
  exact (hmul.cancel_right_of_coprime ha).eq_of_lt_of_lt (hi.trans_le hn) (hj.trans_le hn)

/-- Within m steps the walk visits every value below m once (R175). -/
theorem piWalk_perm_range (hm : 0 < m) (ha : m.Coprime a) : (piWalk m a b m).Perm (List.range m) := by
  have hsub : (piWalk m a b m).Subperm (List.range m) :=
    (nodup_piWalk ha le_rfl).subperm fun x hx => List.mem_range.2 (lt_of_mem_piWalk hm hx)
  exact hsub.perm_of_length_le (by rw [List.length_range, length_piWalk])

end

/-! ### The LT terms -/

/-- The LT terms from b on are the walk modulo W (R175). -/
theorem cons_ltTail {w a b : Nat} (hb : b < w) (n : Nat) : b :: ltTail w a n b = piWalk w a b (n + 1) := by
  induction n generalizing b with
  | zero => rw [piWalk_succ hb]; rfl
  | succ n ih => rw [piWalk_succ hb, ltTail, ih (Nat.mod_lt _ (by omega))]

/-! ### The PI terms -/

/-- The values below P of n steps of the walk modulo P1, in the order of the walk (R176). -/
def piVisits (p p1 a1 b1 n : Nat) : List Nat := (piWalk p1 a1 b1 n).filter (· < p)

section
variable {p p1 a1 b1 w : Nat}

/-- Where one of the next `fuel` values of the walk is below P, the skip ends at the first such value (R175). -/
theorem piVisits_eq_skipPi_cons (hb : b1 < p1) {fuel n : Nat} (hfuel : fuel ≤ n)
    (hhit : ∃ x ∈ piWalk p1 a1 b1 fuel, x < p) :
    ∃ rest, n ≤ rest + fuel ∧ piVisits p p1 a1 b1 n =
      skipPi p p1 a1 fuel b1 :: piVisits p p1 a1 ((skipPi p p1 a1 fuel b1 + a1) % p1) rest := by
  induction fuel generalizing b1 n with
  | zero => simp [piWalk] at hhit
  | succ fuel ih =>
    obtain ⟨n, rfl⟩ : ∃ k, n = k + 1 := ⟨n - 1, by omega⟩
    rw [piVisits, piWalk_succ hb, List.filter_cons, skipPi]
    by_cases hlt : b1 < p
    · rw [if_pos (decide_eq_true hlt), if_pos hlt]
      exact ⟨n, by omega, rfl⟩
    · rw [if_neg (by simpa using hlt), if_neg hlt]
      have hnext : ∃ x ∈ piWalk p1 a1 ((b1 + a1) % p1) fuel, x < p := by
        obtain ⟨x, hx, hxp⟩ := hhit
        rw [piWalk_succ hb] at hx
        exact ⟨x, (List.mem_cons.1 hx).resolve_left (by omega), hxp⟩
      obtain ⟨rest, hrest, hvisits⟩ := ih (Nat.mod_lt _ (by omega)) (by omega : fuel ≤ n) hnext
      exact ⟨rest, by omega, hvisits⟩

variable (hp1 : p1.Prime) (hpos : 0 < a1) (hlt : a1 < p1)
include hp1 hpos hlt

/-- The walk meets 0, and so a value below P, within P1 steps. -/
theorem exists_mem_piWalk_lt (hp : 0 < p) (b1 : Nat) : ∃ x ∈ piWalk p1 a1 b1 p1, x < p := by
  obtain ⟨j, hj, hzero⟩ := exists_step_mod_eq_zero hp1 hpos hlt b1
  exact ⟨_, List.mem_map.2 ⟨j, List.mem_range.2 hj, rfl⟩, hzero ▸ hp⟩

/-- The PI terms are W plus the first values below P of the walk: P1 steps are enough for each (R175, R176). -/
theorem cons_piTail (hp : 0 < p) (hb : b1 < p1) {k n : Nat} (hn : (k + 1) * p1 ≤ n) :
    (w + skipPi p p1 a1 p1 b1) :: piTail w p p1 a1 k (skipPi p p1 a1 p1 b1) =
      ((piVisits p p1 a1 b1 n).take (k + 1)).map (w + ·) := by
  have hhit := exists_mem_piWalk_lt hp1 hpos hlt hp
  induction k generalizing b1 n with
  | zero =>
    obtain ⟨rest, -, hvisits⟩ := piVisits_eq_skipPi_cons hb (by omega : p1 ≤ n) (hhit b1)
    rw [hvisits]
    rfl
  | succ k ih =>
    rw [Nat.succ_mul] at hn
    obtain ⟨rest, hrest, hvisits⟩ := piVisits_eq_skipPi_cons hb (by omega : p1 ≤ n) (hhit b1)
    rw [hvisits, List.take_succ_cons, List.map_cons, ← ih (Nat.mod_lt _ hp1.pos) (by omega)]
    rfl

theorem le_length_piVisits (hle : p ≤ p1) : p ≤ (piVisits p p1 a1 b1 p1).length := by
  have hperm := (piWalk_perm_range (b := b1) hp1.pos (coprime_of_step hp1 hpos hlt)).filter (· < p)
  have hbelow := (List.range_sublist.2 hle).filter (· < p)
  rw [List.filter_eq_self.2 fun x hx => by simpa using hx] at hbelow
  rw [piVisits, hperm.length_eq]
  simpa using hbelow.length_le

/-- Up to P of the values below P are distinct, since P1 steps meet so many and none of them twice (R176). -/
theorem nodup_take_piVisits (hle : p ≤ p1) {k n : Nat} (hk : k ≤ p) (hn : p1 ≤ n) :
    ((piVisits p p1 a1 b1 n).take k).Nodup := by
  have hpre : piVisits p p1 a1 b1 p1 <+: piVisits p p1 a1 b1 n := by
    rw [piVisits, ← take_piWalk hn]
    exact (List.take_prefix _ _).filter _
  obtain ⟨rest, hrest⟩ := hpre
  rw [← hrest, List.take_append_of_le_length (hk.trans (le_length_piVisits hp1 hpos hlt hle))]
  exact ((nodup_piWalk (coprime_of_step hp1 hpos hlt) le_rfl).filter _).take

end

theorem length_piTail (w p p1 a1 n b1 : Nat) : (piTail w p p1 a1 n b1).length = n := by
  induction n generalizing b1 with
  | zero => rfl
  | succ n ih => rw [piTail, List.length_cons, ih]

/-! ### The tuples of a configured block (R170) -/

/-- The laws of the block parameters that tuples and the constraint matrix rest on (41_tables.md R144). -/
structure BlockSizes (c : BlockParams) : Prop extends WalkFits c where
  s_pos : 1 ≤ c.s.toNat
  h_ge : 2 ≤ c.h.toNat
  w_ge : 3 ≤ c.w.toNat
  p_ge : 2 ≤ c.p.toNat
  p_le : c.p.toNat ≤ c.p1.toNat
  ldpc_cols : c.b.toNat + c.s.toNat = c.w.toNat
  hdpc_cols : c.w.toNat + c.u.toNat = c.kp.toNat + c.s.toNat

theorem MachineOk.blockSizes {s : State} (hs : MachineOk s) (hv : s.status.cfgValid = true) : BlockSizes s.cfg := by
  obtain ⟨-, -, -, hw, hu, -, hs1, hh, hw3, hp, -, hle, -⟩ := blockParameterLaws s hs hv
  exact ⟨hs.walkFits hv, hs1, hh, hw3, hp, hle, hw.symm, hu⟩

/-- The ranges of the numbers of a tuple (R170). -/
structure TupleOk (c : BlockParams) (t : LtTuple) : Prop extends LtTuple.Walks c.w.toNat c.p1.toNat t where
  d_pos : 1 ≤ t.d
  d_le : t.d ≤ c.w.toNat - 2
  a_pos : 1 ≤ t.a
  a_lt : t.a < c.w.toNat
  d1_eq : t.d1 = 2 ∨ t.d1 = 3

theorem tupleOf_ok {b : Build} {c : BlockParams} (hb : BuildOk b) (hc : BlockSizes c) (x : Nat) :
    TupleOk c (tupleOf b c x) := by
  have hw := hc.w_ge
  have hdeg := hb.degF.degIndex_spec (randOf_lt b (tupleY c.j.toNat x) 0 (m := 2 ^ 20) (by decide))
  have hstep := randOf_lt b (tupleY c.j.toNat x) 1 (m := c.w.toNat - 1) (by omega)
  have hpi := randOf_lt b x 3 (m := 2) (by decide)
  refine ⟨tupleOf_walks b hc.toWalkFits x, le_min hdeg.1 (by omega), min_le_right _ _, Nat.le_add_right 1 _, ?_, ?_⟩
  · simp only [tupleOf]
    omega
  · simp only [tupleOf]
    split <;> omega

/-! ### TupleIndices (R175, R176) -/

section
variable {c : BlockParams} {t : LtTuple} (ht : TupleOk c t)
include ht

theorem TupleOk.d1_pos : 1 ≤ t.d1 := by
  obtain h | h := ht.d1_eq <;> omega

theorem TupleOk.length_indices (p q : Nat) : (tupleIndices c.w.toNat p q t).length = t.d + t.d1 := by
  rw [tupleIndices, cons_ltTail ht.b, List.length_append, length_piWalk, List.length_cons, length_piTail,
    Nat.sub_add_cancel ht.d_pos, Nat.sub_add_cancel ht.d1_pos]

/-- The indices are d values of the LT walk and then W plus the first d1 values below P of the PI walk, of which three turns
are enough since d1 <= 3. -/
theorem TupleOk.indices_eq (hc : BlockSizes c) :
    tupleIndices c.w.toNat c.p.toNat c.p1.toNat t =
      piWalk c.w.toNat t.a t.b t.d ++
        ((piVisits c.p.toNat c.p1.toNat t.a1 t.b1 (3 * c.p1.toNat)).take t.d1).map (c.w.toNat + ·) := by
  have hd1 : t.d1 - 1 + 1 = t.d1 := Nat.sub_add_cancel ht.d1_pos
  have hturns : (t.d1 - 1 + 1) * c.p1.toNat ≤ 3 * c.p1.toNat := by
    obtain h | h := ht.d1_eq <;> exact Nat.mul_le_mul_right _ (by omega)
  rw [tupleIndices, cons_ltTail ht.b, Nat.sub_add_cancel ht.d_pos,
    cons_piTail hc.p1 ht.a1_pos ht.a1_lt hc.p ht.b1 hturns, hd1]

end

/-- Settles O44: the indices are two walks, whose values are bounded by their moduli and distinct within a turn. -/
theorem tupleIndicesInRange : Obligations.TupleIndicesInRange := by
  unfold Obligations.TupleIndicesInRange
  intro s x hs hv
  have hc := hs.blockSizes hv
  have ht := tupleOf_ok hs.build hc x
  have hout : indicesOf s.build s.cfg x = _ := ht.indices_eq hc
  have hlt := congrArg (List.take (tupleOf s.build s.cfg x).d) hout
  have hpi := congrArg (List.drop (tupleOf s.build s.cfg x).d) hout
  rw [List.take_left' length_piWalk] at hlt
  rw [List.drop_left' length_piWalk] at hpi
  refine ⟨ht.d_pos, ht.d_le, ht.a_pos, Nat.le_sub_one_of_lt ht.a_lt, ht.b, ht.d1_eq, ht.a1_pos,
    Nat.le_sub_one_of_lt ht.a1_lt, ht.b1, ht.length_indices _ _, hlt, hpi, fun n hn => ?_,
    fun n hn => ⟨?_, lt_of_mem_indicesOf hc.toWalkFits (List.mem_of_mem_drop hn)⟩, fun hw => ?_, fun hle => ?_⟩
  · exact lt_of_mem_piWalk hc.w (hlt ▸ hn)
  · rw [hpi] at hn
    obtain ⟨v, -, rfl⟩ := List.mem_map.1 hn
    exact Nat.le_add_right _ v
  · rw [hlt]
    exact nodup_piWalk (coprime_of_step hw ht.a_pos ht.a_lt) (ht.d_le.trans (Nat.sub_le _ _))
  · rw [hpi]
    exact (nodup_take_piVisits hc.p1 ht.a1_pos ht.a1_lt hc.p_le hle (by omega)).map fun _ _ => Nat.add_left_cancel

end Sys2Proof.Machine
end

section
/-! PROOFS. The rows of the constraint matrix (spec/42_tuple_matrix.md R180 to R188): the parities of pattern(X), the LDPC rows,
and the HDPC rows as the product of MT and GAMMA beside an identity. -/

namespace Sys2Proof.Machine
open Sys2Proof.Claims

/-! ### pattern(X) (R187) -/

theorem getD_modify_xor_one (row : Row) (m : Nat) {n : Nat} (hn : n < row.length) :
    (row.modify m (gfAdd · 1)).getD n 0 = row.getD n 0 ^^^ if m = n then 1 else 0 := by
  rw [List.getD_eq_getElem?_getD, List.getElem?_modify, List.getD_eq_getElem?_getD, List.getElem?_eq_getElem hn]
  split <;> simp [gfAdd]

/-- Every visit of a column toggles its entry, so the entry changes by the parity of the visits. -/
theorem getD_toggleAll (ns : List Nat) (row : Row) {n : Nat} (hn : n < row.length) :
    (toggleAll ns row).getD n 0 = row.getD n 0 ^^^ if ns.count n % 2 = 1 then 1 else 0 := by
  induction ns generalizing row with
  | nil => simp [toggleAll]
  | cons m ns ih =>
    rw [toggleAll, ih _ (by rwa [List.length_modify]), getD_modify_xor_one row m hn, List.count_cons, BitVec.xor_assoc]
    congr 1
    by_cases hm : m = n
    · obtain h | h := Nat.mod_two_eq_zero_or_one (ns.count n) <;> simp [hm, h, Nat.add_mod]
    · simp [hm]

theorem getD_zeroBytes (l n : Nat) : (zeroBytes l).getD n 0 = 0 := by
  rw [zeroBytes, List.getD_eq_getElem?_getD, List.getElem?_replicate]
  split <;> rfl

/-- Settles O45. -/
theorem patternIsTheParity : Obligations.PatternIsTheParity := by
  unfold Obligations.PatternIsTheParity
  intro b c x
  refine ⟨length_patternOf b c x, fun n hn => ?_⟩
  rw [patternOf, getD_toggleAll _ _ (by rwa [length_zeroBytes]), getD_zeroBytes]
  exact BitVec.zero_xor

/-! ### The rows of the matrix by their regions (R180) -/

section
variable {b : Build} {c : BlockParams}

theorem getD_map_range {α : Type} (f : Nat → α) (d : α) {n k : Nat} (hk : k < n) :
    ((List.range n).map f).getD k d = f k := by
  simp [List.getD_eq_getElem?_getD, hk]

theorem getD_constraintMatrix_ldpc {r : Nat} (hr : r < c.s.toNat) :
    (constraintMatrix b c).getD r [] = (List.range c.l.toNat).map (ldpcEntry c r) := by
  rw [constraintMatrix, List.append_assoc, List.getD_append _ _ _ _ (by simpa using hr), getD_map_range _ _ hr]

theorem getD_constraintMatrix_hdpc {h : Nat} (hh : h < c.h.toNat) :
    (constraintMatrix b c).getD (c.s.toNat + h) [] = (List.range c.l.toNat).map (hdpcEntry b c h) := by
  rw [constraintMatrix, List.getD_append _ _ _ _ (by simpa using hh), List.getD_append_right _ _ _ _ (by simp)]
  rw [List.length_map, List.length_range, Nat.add_sub_cancel_left, getD_map_range _ _ hh]

theorem getD_constraintMatrix_genc {i : Nat} (hi : i < c.kp.toNat) :
    (constraintMatrix b c).getD (c.s.toNat + c.h.toNat + i) [] = patternOf b c i := by
  rw [constraintMatrix, List.getD_append_right _ _ _ _ (by simp)]
  rw [List.length_append, List.length_map, List.length_map, List.length_range, List.length_range, Nat.add_sub_cancel_left,
    getD_map_range _ _ hi]

theorem entryOf_ldpc {r col : Nat} (hr : r < c.s.toNat) (hcol : col < c.l.toNat) :
    entryOf (constraintMatrix b c) r col = ldpcEntry c r col := by
  rw [entryOf, getD_constraintMatrix_ldpc hr, getD_map_range _ _ hcol]

theorem entryOf_hdpc {h col : Nat} (hh : h < c.h.toNat) (hcol : col < c.l.toNat) :
    entryOf (constraintMatrix b c) (c.s.toNat + h) col = hdpcEntry b c h col := by
  rw [entryOf, getD_constraintMatrix_hdpc hh, getD_map_range _ _ hcol]

/-! ### The LDPC rows (R181, R182) -/

theorem ldpcEntry_of_lt_b (r : Nat) {col : Nat} (hcol : col < c.b.toNat) :
    ldpcEntry c r col =
      if r = col % c.s.toNat ∨ r = (col % c.s.toNat + (col / c.s.toNat + 1)) % c.s.toNat ∨
        r = (col % c.s.toNat + 2 * (col / c.s.toNat + 1)) % c.s.toNat then 1 else 0 := by
  simp only [ldpcEntry, if_pos hcol]

theorem ldpcEntry_of_lt_w (r : Nat) {col : Nat} (hb : c.b.toNat ≤ col) (hw : col < c.w.toNat) :
    ldpcEntry c r col = if col = c.b.toNat + r then 1 else 0 := by
  simp only [ldpcEntry, if_neg (Nat.not_lt_of_le hb), if_pos hw]

theorem ldpcEntry_of_w_le (hc : BlockSizes c) (r : Nat) {col : Nat} (hw : c.w.toNat ≤ col) :
    ldpcEntry c r col =
      if col = c.w.toNat + r % c.p.toNat ∨ col = c.w.toNat + (r + 1) % c.p.toNat then 1 else 0 := by
  have hb : c.b.toNat ≤ col := by have := hc.ldpc_cols; omega
  simp only [ldpcEntry, if_neg (Nat.not_lt_of_le hb), if_neg (Nat.not_lt_of_le hw)]

end

/-! ### MT (R183) -/

section
variable {b : Build} {hh n h k : Nat}

theorem mtOnes_eq_mtRows (b : Build) (h j : Nat) : mtOnes b h j = mtRows b h j := by
  have hfind : b.hdpcMt.find? (fun e => e.h = h ∧ e.j = j) = (b.hdpcMt.filter fun e => e.h == h && e.j == j).head? := by
    rw [List.head?_filter]
    simp only [Bool.decide_and, beq_eq_decide]
  rw [mtOnes, mtRows, hfind]
  cases b.hdpcMt.filter fun e => e.h == h && e.j == j with
  | nil => simp only [List.head?_nil, randOf_eq_randRule]
  | cons e es => rfl

theorem mtEntry_of_succ_lt (hk : k + 1 < n) : mtEntry b hh n h k = if h ∈ mtRows b hh k then 1 else 0 := by
  simp only [mtEntry, if_neg hk.ne, mtOnes_eq_mtRows, List.contains_iff_mem]

theorem mtEntry_last (hn : 0 < n) (hlt : h < 510) : mtEntry b hh n h (n - 1) = b.expRom.getD h 0 := by
  rw [mtEntry, if_pos (Nat.sub_add_cancel hn), expEntry_of_lt b hlt]

/-- Two or three different rows. -/
def RowSet (hh : Nat) (rows : List Nat) : Prop :=
  (rows.length = 2 ∨ rows.length = 3) ∧ rows.Nodup ∧ ∀ r ∈ rows, r < hh

/-- The RFC's two rows differ, since the second lies 1 to H - 1 rows behind the first modulo H. -/
theorem rowSet_rfc {r q : Nat} (hr : r < hh) (hq : q < hh - 1) : RowSet hh [r, (r + q + 1) % hh] := by
  have hne : r ≠ (r + q + 1) % hh := by
    intro heq
    have hmod : (r + 0) % hh = (r + (q + 1)) % hh := by rw [Nat.add_zero, Nat.mod_eq_of_lt hr]; exact heq
    have := (Nat.ModEq.add_left_cancel' r hmod).eq_of_lt_of_lt (by omega) (by omega)
    omega
  refine ⟨.inl rfl, by simpa using hne, fun x hx => ?_⟩
  obtain rfl | rfl : x = r ∨ x = (r + q + 1) % hh := by simpa using hx
  · exact hr
  · exact Nat.mod_lt _ (by omega)

theorem rowSet_mtRows (hb : BuildOk b) (hge : 2 ≤ hh) (k : Nat) : RowSet hh (mtRows b hh k) := by
  have hmt : HdpcOk b.hdpcMt := hb.1.2.2.2.2
  unfold mtRows
  split
  · rename_i e _ hfilter
    have he : e ∈ b.hdpcMt.filter fun e => e.h == hh && e.j == k := hfilter ▸ List.mem_cons_self
    obtain ⟨hmem, hkey⟩ := List.mem_filter.1 he
    obtain ⟨rfl, -⟩ : e.h = hh ∧ e.j = k := by simpa using hkey
    exact hmt e hmem
  · exact rowSet_rfc (Nat.mod_lt _ (by omega)) (Nat.mod_lt _ (by omega))

end

/-! ### GAMMA and the product (R184, R185) -/

section
variable {b : Build}

theorem gammaEntry_of_le {r col : Nat} (h : col ≤ r) : gammaEntry b r col = b.expRom.getD ((r - col) % 256) 0 := by
  rw [gammaEntry, if_pos h, expEntry_of_lt b ((Nat.mod_lt _ (by decide)).trans (by decide))]

theorem gammaEntry_of_lt {r col : Nat} (h : r < col) : gammaEntry b r col = 0 := if_neg (Nat.not_le_of_lt h)

theorem gammaEntry_diagonal (hb : BuildOk b) (r : Nat) : gammaEntry b r r = 1 := by
  rw [gammaEntry_of_le le_rfl, Nat.sub_self, Nat.zero_mod, hb.tables.exp_zero]

theorem xorSum_eq_xorAll (f : Nat → Byte) (ks : List Nat) : xorSum f ks = xorAll (ks.map f) := by
  induction ks with
  | nil => rfl
  | cons k ks ih => rw [xorSum, ih]; rfl

theorem xorAll_append_of_zero {us : List Byte} (vs : List Byte) (h : ∀ u ∈ us, u = 0) : xorAll (us ++ vs) = xorAll vs := by
  induction us with
  | nil => rfl
  | cons u us ih =>
    obtain ⟨rfl, hus⟩ := List.forall_mem_cons.1 h
    exact (BitVec.zero_xor ..).trans (ih hus)

/-- The terms before the diagonal of GAMMA vanish. -/
theorem xorSum_gammaEntry (f : Nat → Byte) {col n : Nat} (hcol : col ≤ n) :
    xorSum (fun k => gfMul b (f k) (gammaEntry b k col)) (List.range' col (n - col)) =
      xorAll ((List.range n).map fun k => gfMul b (f k) (gammaEntry b k col)) := by
  have hsplit : List.range n = List.range col ++ List.range' col (n - col) := by
    have happend := List.range'_append_1 (s := 0) (m := col) (n := n - col)
    rw [Nat.zero_add, Nat.add_sub_of_le hcol] at happend
    rw [List.range_eq_range', List.range_eq_range', happend]
  rw [xorSum_eq_xorAll, hsplit, List.map_append, xorAll_append_of_zero]
  intro u hu
  obtain ⟨k, hk, rfl⟩ := List.mem_map.1 hu
  rw [gammaEntry_of_lt (List.mem_range.1 hk), gfMul_zero_right]

end

/-! ### The HDPC rows (R185, R186) -/

section
variable {b : Build} {c : BlockParams} {h : Nat}

theorem hdpcEntry_of_lt {col : Nat} (hcol : col < c.kp.toNat + c.s.toNat) :
    hdpcEntry b c h col = xorAll ((List.range (c.kp.toNat + c.s.toNat)).map fun k =>
      gfMul b (mtEntry b c.h.toNat (c.kp.toNat + c.s.toNat) h k) (gammaEntry b k col)) := by
  rw [← xorSum_gammaEntry _ hcol.le, hdpcEntry]
  exact if_pos hcol

/-- The identity stands behind the K' + S columns of the product. -/
theorem hdpcEntry_identity (hc : BlockSizes c) (col : Nat) :
    hdpcEntry b c h (c.kp.toNat + c.s.toNat + col) = if col = h then 1 else 0 := by
  rw [hdpcEntry, hc.hdpc_cols]
  simp

/-- Of the last column of the product only the diagonal entry of GAMMA remains (R185). -/
theorem hdpcEntry_last (hb : BuildOk b) (hc : BlockSizes c) (hlt : h < 510) :
    hdpcEntry b c h (c.kp.toNat + c.s.toNat - 1) = b.expRom.getD h 0 := by
  have hn : 0 < c.kp.toNat + c.s.toNat := Nat.add_pos_right _ hc.s_pos
  have hone : c.kp.toNat + c.s.toNat - (c.kp.toNat + c.s.toNat - 1) = 1 := by omega
  rw [hdpcEntry, if_pos (Nat.sub_lt hn Nat.one_pos), hone, List.range'_one, xorSum, xorSum, mtEntry_last hn hlt,
    gammaEntry_diagonal hb, gfMul_one hb]
  exact BitVec.xor_zero

end

/-- Settles O46. -/
theorem constraintMatrixEntries : Obligations.ConstraintMatrixEntries := by
  unfold Obligations.ConstraintMatrixEntries
  refine ⟨fun s hs hv => ?_, fun s hs hv => ?_⟩
  · have hc := hs.blockSizes hv
    have hlt {col : Nat} (hcol : col < s.cfg.w.toNat) : col < s.cfg.l.toNat := by have := hc.l; omega
    refine ⟨(length_constraintMatrix _ _).trans (hs.blockFits hv).rows, fun _ => length_of_mem_constraintMatrix,
      fun r hr => ⟨fun col hcol => ?_, fun col hcb hcw => ?_, fun col hcw hcl => ?_⟩⟩
    · rw [entryOf_ldpc hr (hlt (by have := hc.ldpc_cols; omega)), ldpcEntry_of_lt_b r hcol]
    · rw [entryOf_ldpc hr (hlt hcw), ldpcEntry_of_lt_w r hcb hcw]
    · rw [entryOf_ldpc hr hcl, ldpcEntry_of_w_le hc r hcw]
  · have hc := hs.blockSizes hv
    have hrows := (hs.blockFits hv).rows
    have hn : 0 < s.cfg.kp.toNat + s.cfg.s.toNat := Nat.add_pos_right _ hc.s_pos
    refine ⟨fun h hh col hcol => ?_, fun h hh col hcol => ?_, fun h hh hexp => ?_, fun h _ k => mtEntry_of_succ_lt,
      fun h _ => mtEntry_last hn, rowSet_mtRows hs.build hc.h_ge, fun r col => gammaEntry_of_le,
      fun r col => gammaEntry_of_lt, fun i => getD_constraintMatrix_genc⟩
    · rw [entryOf_hdpc hh (by omega), hdpcEntry_of_lt hcol]
    · rw [entryOf_hdpc hh (by omega), hdpcEntry_identity hc]
    · rw [entryOf_hdpc hh (by omega), hdpcEntry_last hs.build hc hexp]

end Sys2Proof.Machine
end

section
/-! PROOFS. TUPLE, BUILD_A and ROW_PATTERN: their words, their failures, and what they store (spec/42_tuple_matrix.md R171, R190,
R191). -/

namespace Sys2Proof.Machine
open Sys2Proof.Claims

/-- A command that needs a configured block fails without one and changes nothing else (60_exceptions.md R300, R303). -/
theorem needConfig_eq_failState {s : State} (hv : s.status.cfgValid = false) (k : Out) :
    needConfig s k = .next (failState s 0x02) := needConfig_of_invalid hv k

/-! ### TUPLE (R170, R171) -/

theorem lor_one_eq (n : Nat) : n ||| 1 = n + (n + 1) % 2 := by
  have hhalf : (n ||| 1) / 2 = n / 2 := by rw [Nat.or_div_two]; exact Nat.or_zero _
  have hodd : (n ||| 1) % 2 = 1 := Nat.or_mod_two_eq_one.2 (.inr rfl)
  omega

/-- Forcing 53591 + 997 J odd adds 1 exactly when J is odd. -/
theorem tupleY_eq_tupleYRule (j x : Nat) : tupleY j x = tupleYRule j x := by
  have hodd : (53591 + 997 * j) ||| 1 = 53591 + 997 * j + j % 2 := by rw [lor_one_eq]; omega
  rw [tupleY, tupleYRule, hodd]

/-- The six results, for any tuple: nothing else but the completion changes. -/
theorem finish_setResTuple (s : State) (t : LtTuple) :
    finish (s.setResTuple t) = .next { s with
      res := (((((s.res.set 0 (word t.d)).set 1 (word t.a)).set 2 (word t.b)).set 3 (word t.d1)).set 4
        (word t.a1)).set 5 (word t.b1)
      status := doneStatus s.status } := by
  simp only [finish, State.complete, State.setResTuple, State.setRes]
  rfl

/-- Settles O43. -/
theorem tupleResult : Obligations.TupleResult := by
  unfold Obligations.TupleResult
  refine ⟨encodedN_of_decode fun w h => by rw [decode, h]; rfl, fun s => ⟨fun hv => needConfig_eq_failState hv _,
    fun hv => ?_⟩⟩
  show execTuple s = _
  rw [execTuple, needConfig_of_valid hv, finish_setResTuple, tupleOf, tupleY_eq_tupleYRule]
  rfl

/-! ### Rows of MAT_A (20_memory.md R61) -/

/-- The rows stored in MAT_A read back, since none reaches over the next one. -/
theorem State.read_writeMatrix_row {s : State} {row n c : Nat} {l : List Row} (hl : ∀ v ∈ l, v.length ≤ s.build.lMax)
    (hc : c < (l.getD n []).length) :
    (s.writeMatrix row l).mem.read (matRow s.build .matA (row + n) + c) = some (entryOf l n c) := by
  induction l generalizing s row n with
  | nil => simp at hc
  | cons v l ih =>
    rw [State.writeMatrix]
    cases n with
    | zero =>
      have hlen := hl v List.mem_cons_self
      rw [List.getD_cons_zero] at hc
      rw [State.read_writeMatrix fun k w _ => ?_, Nat.add_zero, State.setMem_mem, Memory.read_writeBytes,
        if_pos (by omega), Nat.add_sub_cancel_left, entryOf, List.getD_cons_zero, List.getElem?_eq_getElem hc,
        List.getD_eq_getElem _ _ hc]
      have hbehind := row_add_le (row := row) (n := row + 1 + k) (by omega) (show c + 1 ≤ s.build.lMax by omega)
      simp only [State.setMem_build, matRow, Nat.add_zero]
      omega
    | succ n =>
      rw [show row + (n + 1) = row + 1 + n by omega]
      exact ih (s := s.setMem (s.mem.writeBytes (matRow s.build .matA row) v)) (row := row + 1)
        (fun w hw => hl w (List.mem_cons_of_mem _ hw)) hc

/-! ### BUILD_A (R190) -/

theorem exec_buildA {s : State} (hv : s.status.cfgValid = true) :
    exec .buildA s = .next { s with
      mem := (s.writeMatrix 0 (constraintMatrix s.build s.cfg)).mem
      mRows := s.cfg.l
      status := doneStatus s.status } := by
  show execBuildA s = _
  rw [execBuildA, needConfig_of_valid hv, State.writeMatrix_eq_setMem]
  simp [finish, State.complete, State.setMRows, State.setMem, doneStatus, Status.complete]

section
variable {s : State} (hs : MachineOk s) (hv : s.status.cfgValid = true)
include hs hv

theorem read_buildA_entry {r c : Nat} (hr : r < lOf s) (hc : c < lOf s) :
    (s.writeMatrix 0 (constraintMatrix s.build s.cfg)).mem.read (aRow s r + c) =
      some (entryOf (constraintMatrix s.build s.cfg) r c) := by
  have hrow : r < (constraintMatrix s.build s.cfg).length := by
    rwa [length_constraintMatrix, (hs.blockFits hv).rows]
  have hread := State.read_writeMatrix_row (s := s) (row := 0) (n := r) (c := c)
    (fun v hmem => (length_of_mem_constraintMatrix hmem).trans_le (hs.blockFits hv).l)
    (by rwa [List.getD_eq_getElem _ _ hrow, length_of_mem_constraintMatrix (List.getElem_mem hrow)])
  rwa [Nat.zero_add] at hread

theorem read_buildA_other {a : Nat} (ha : ∀ r < lOf s, ∀ c < lOf s, a ≠ aRow s r + c) :
    (s.writeMatrix 0 (constraintMatrix s.build s.cfg)).mem.read a = s.mem.read a := by
  refine State.read_writeMatrix fun r v hrow hin => ?_
  obtain ⟨hr, rfl⟩ := List.getElem?_eq_some_iff.1 hrow
  rw [length_of_mem_constraintMatrix (List.getElem_mem hr), Nat.zero_add] at hin
  rw [length_constraintMatrix, (hs.blockFits hv).rows] at hr
  exact ha r hr (a - aRow s r) (Nat.sub_lt_left_of_lt_add hin.1 hin.2) (Nat.add_sub_of_le hin.1).symm

end

/-! ### ROW_PATTERN (R191) -/

section
variable {s : State} (hv : s.status.cfgValid = true)
include hv

theorem exec_rowPattern_beyond (hrow : mMaxOf s.build ≤ argn s 0) : exec .rowPattern s = .next (failState s 0x04) := by
  show execRowPattern s = _
  rw [execRowPattern, needConfig_of_valid hv]
  exact if_pos hrow

theorem exec_rowPattern (hrow : argn s 0 < mMaxOf s.build) :
    exec .rowPattern s = .next { s with
      mem := s.mem.writeBytes (aRow s (argn s 0)) (patternOf s.build s.cfg (argn s 1))
      status := doneStatus s.status } := by
  show execRowPattern s = _
  rw [execRowPattern, needConfig_of_valid hv]
  exact if_neg (Nat.not_le_of_lt hrow)

end

theorem list_eq_map_range_getD (row : Row) : row = (List.range row.length).map fun k => row.getD k 0 :=
  List.ext_getElem (by simp) fun k hk _ => by
    rw [List.getElem_map, List.getElem_range, List.getD_eq_getElem _ _ hk]

/-- Settles O47. -/
theorem buildAAndRowPattern : Obligations.BuildAAndRowPattern := by
  unfold Obligations.BuildAAndRowPattern
  refine ⟨⟨encodedN_of_decode fun w h => by rw [decode, h]; rfl, fun s => ⟨fun hv => needConfig_eq_failState hv _,
    fun hs hv => ⟨_, exec_buildA hv, fun r hr c hc => read_buildA_entry hs hv hr hc, fun a => read_buildA_other hs hv⟩⟩⟩,
    encodedN_of_decode fun w h => by rw [decode, h]; rfl, fun s => ⟨fun hv => needConfig_eq_failState hv _,
    exec_rowPattern_beyond, fun hv hrow => ⟨_, exec_rowPattern hv hrow, ?_⟩⟩⟩
  have hstore := storesOnly_writeBytes_map_range s.mem (aRow s (argn s 0)) (patternOf s.build s.cfg (argn s 1)).length
    ((patternOf s.build s.cfg (argn s 1)).getD · 0)
  rwa [← list_eq_map_range_getD, length_patternOf] at hstore

end Sys2Proof.Machine
end

section
/-! PROOFS. LT_ENC and the LT encoder (spec/43_lt_encoder.md R210 to R212): `enc(X)` byte by byte, and as the product of the row
pattern(X) and the intermediate symbols. -/

namespace Sys2Proof.Machine
open Sys2Proof.Claims

/-! ### Exclusive ors of bytes -/

theorem xorAll_cons (u : Byte) (us : List Byte) : xorAll (u :: us) = u ^^^ xorAll us := rfl

theorem xorAll_append (us vs : List Byte) : xorAll (us ++ vs) = xorAll us ^^^ xorAll vs := by
  induction us with
  | nil => exact (BitVec.zero_xor ..).symm
  | cons u us ih => rw [List.cons_append, xorAll_cons, ih, xorAll_cons, BitVec.xor_assoc]

section
variable {α : Type} {l : List α} {f g : α → Byte}

/-- The sum of the sums is the sum, element by element. -/
theorem xorAll_map_xor : xorAll (l.map fun x => f x ^^^ g x) = xorAll (l.map f) ^^^ xorAll (l.map g) := by
  induction l with
  | nil => exact (BitVec.zero_xor ..).symm
  | cons x l ih =>
    simp only [List.map_cons, xorAll_cons, ih]
    ac_rfl

theorem xorAll_map_zero (h : ∀ x ∈ l, f x = 0) : xorAll (l.map f) = 0 := by
  induction l with
  | nil => rfl
  | cons x l ih =>
    obtain ⟨hx, hl⟩ := List.forall_mem_cons.1 h
    rw [List.map_cons, xorAll_cons, ih hl, hx]
    rfl

end

/-- A sum with one nonzero term is that term. -/
theorem xorAll_range_single {f : Nat → Byte} {n c : Nat} (hc : c < n) (h : ∀ j < n, j ≠ c → f j = 0) :
    xorAll ((List.range n).map f) = f c := by
  induction n with
  | zero => omega
  | succ n ih =>
    rw [List.range_succ, List.map_append, xorAll_append, List.map_singleton, xorAll_cons, show xorAll [] = 0#8 from rfl,
      BitVec.xor_zero]
    obtain rfl | hlt := Nat.eq_or_lt_of_le (Nat.le_of_lt_succ hc)
    · rw [xorAll_map_zero fun j hj => h j (Nat.lt_succ_of_lt (List.mem_range.1 hj)) (List.mem_range.1 hj).ne]
      exact BitVec.zero_xor
    · rw [ih hlt fun j hj => h j (Nat.lt_succ_of_lt hj), h n (Nat.lt_succ_self n) hlt.ne']
      exact BitVec.xor_zero

theorem xorAll_range_congr {f g : Nat → Byte} {n : Nat} (h : ∀ j < n, f j = g j) :
    xorAll ((List.range n).map f) = xorAll ((List.range n).map g) :=
  congrArg xorAll (List.map_congr_left fun j hj => h j (List.mem_range.1 hj))

/-- Visiting a place twice cancels: a sum over visits is the sum over the places visited an odd number of times. -/
theorem xorAll_visits {g : Nat → Byte} {ns : List Nat} {l : Nat} (hns : ∀ n ∈ ns, n < l) :
    xorAll (ns.map g) = xorAll ((List.range l).map fun c => if ns.count c % 2 = 1 then g c else 0) := by
  induction ns with
  | nil => exact (xorAll_map_zero fun c _ => rfl).symm
  | cons m ns ih =>
    obtain ⟨hm, hns⟩ := List.forall_mem_cons.1 hns
    have htoggle (c : Nat) : (if (m :: ns).count c % 2 = 1 then g c else 0) =
        (if c = m then g m else 0) ^^^ if ns.count c % 2 = 1 then g c else 0 := by
      rw [List.count_cons]
      by_cases hc : c = m
      · obtain h | h := Nat.mod_two_eq_zero_or_one (ns.count c) <;> simp_all [Nat.add_mod]
      · simp [hc, Ne.symm hc]
    simp only [htoggle]
    rw [xorAll_map_xor, xorAll_range_single hm fun j _ hj => if_neg hj, if_pos rfl, List.map_cons, xorAll_cons, ih hns]

/-! ### `enc(X)` (R210) -/

section
variable {s : State}

/-- The rows of SYM_C that a list visits, all of which hold values, added to a symbol byte by byte. -/
theorem State.xorRowsC_of_valued {ns : List Nat} (h : ∀ n ∈ ns, Valued s.mem (cRow s n) (tOf s)) (f : Nat → Byte) :
    s.xorRowsC ns ((List.range (tOf s)).map f) =
      some ((List.range (tOf s)).map fun k => f k ^^^ xorAll (ns.map fun n => val s.mem (cRow s n + k))) := by
  induction ns generalizing f with
  | nil => simp [State.xorRowsC, xorAll]
  | cons n ns ih =>
    obtain ⟨hn, hns⟩ := List.forall_mem_cons.1 h
    have hread : s.readSymRow .symC n = some (symbolAt s.mem (cRow s n) (tOf s)) := State.readSymbol_of_valued hn
    rw [State.xorRowsC, hread]
    dsimp only
    rw [symbolAt, xorBytes_map_range, ih hns]
    simp only [List.map_cons, xorAll_cons, BitVec.xor_assoc]

theorem State.enc_of_valued {x : Nat} (h : ∀ n ∈ indicesOf s.build s.cfg x, Valued s.mem (cRow s n) (tOf s)) :
    s.enc x = some ((List.range (tOf s)).map fun k =>
      xorAll ((indicesOf s.build s.cfg x).map fun n => val s.mem (cRow s n + k))) := by
  rw [State.enc, zeroBytes_eq_map_range]
  refine (State.xorRowsC_of_valued h _).trans ?_
  simp only [show (0 : Byte) = 0#8 from rfl, BitVec.zero_xor]

/-! ### LT_ENC (R211) -/

theorem ltEnc_notSolved (hv : s.status.cfgValid = true) (hc : s.status.cValid = false) :
    exec .ltEnc s = .next (failState s 0x05) := by
  show execLtEnc s = _
  rw [execLtEnc, needConfig_of_valid hv, hc]
  rfl

theorem ltEnc_storesRow (hv : s.status.cfgValid = true) (hc : s.status.cValid = true)
    (h : ∀ n ∈ indicesOf s.build s.cfg (argn s 0), Valued s.mem (cRow s n) (tOf s)) :
    StoresRow .ltEnc s outRow fun k =>
      xorAll ((indicesOf s.build s.cfg (argn s 0)).map fun n => val s.mem (cRow s n + k)) := by
  apply StoresRow.of_finish
  show execLtEnc s = _
  have henc : s.enc (s.arg 0) = _ := State.enc_of_valued h
  have hrow : symRow s.build .symOut 0 = outRow := by simp [symRow, Region.base, outRow]
  rw [execLtEnc, needConfig_of_valid hv, if_pos hc, henc, orNoValue_some, State.writeSymRow, hrow]
  rfl

end

/-- Settles O48. -/
theorem ltEncResult : Obligations.LtEncResult := by
  unfold Obligations.LtEncResult
  exact ⟨encodedN_of_decode fun w h => by rw [decode, h]; rfl,
    fun s => ⟨fun hv => needConfig_eq_failState hv _, ltEnc_notSolved, ltEnc_storesRow⟩⟩

/-! ### The product with pattern(X) (R212) -/

theorem gfMul_bit {b : Build} (hb : BuildOk b) (p : Prop) [Decidable p] (v : Byte) :
    gfMul b (if p then 1 else 0) v = if p then v else 0 := by
  split
  · rw [gfMul_comm hb, gfMul_one hb]
  · exact gfMul_zero_left b v

/-- The visits of the indices are the product with their parities (42_tuple_matrix.md R187). -/
theorem xorAll_indicesOf_eq_patternProduct {b : Build} {c : BlockParams} (hb : BuildOk b) (hc : WalkFits c) (x : Nat)
    (g : Nat → Byte) : xorAll ((indicesOf b c x).map g) =
      xorAll ((List.range c.l.toNat).map fun j => gfMul b ((patternOf b c x).getD j 0) (g j)) := by
  rw [xorAll_visits fun n hn => lt_of_mem_indicesOf hc hn]
  refine xorAll_range_congr fun j hj => ?_
  rw [(patternIsTheParity b c x).2 j hj, gfMul_bit hb]

theorem State.enc_eq_patternProduct {s : State} (hb : BuildOk s.build) (hc : WalkFits s.cfg)
    (h : ∀ n < lOf s, Valued s.mem (cRow s n) (tOf s)) (x : Nat) :
    s.enc x = some ((List.range (tOf s)).map fun k => xorAll ((List.range (lOf s)).map fun c =>
      gfMul s.build ((patternOf s.build s.cfg x).getD c 0) (val s.mem (cRow s c + k)))) := by
  rw [State.enc_of_valued fun n hn => h n (lt_of_mem_indicesOf hc hn)]
  simp only [xorAll_indicesOf_eq_patternProduct hb hc x]
  rfl

/-- Settles O49. -/
theorem ltEncIsThePatternProduct : Obligations.LtEncIsThePatternProduct := by
  unfold Obligations.LtEncIsThePatternProduct
  intro s x hs hv h
  refine ⟨_, State.enc_eq_patternProduct hs.build (hs.walkFits hv) h x, by simp, fun k hk => ?_⟩
  rw [getD_map_range _ _ hk]

end Sys2Proof.Machine
end

section
/-! PROOFS. The systems of equations that the solver's states stand for (spec/44_pi_solver.md R220): rows as linear functions of
the columns, and the operations on rows and columns that keep the solutions. -/

namespace Sys2Proof.Machine
open Sys2Proof.Claims

/-! ### Linear functions over GF(256) -/

section
variable {b : Build} (hb : BuildOk b)
include hb

theorem gfMul_assoc (u v w : Byte) : gfMul b (gfMul b u v) w = gfMul b u (gfMul b v w) := by
  obtain rfl | ⟨n, -, rfl⟩ := hb.eq_zero_or_alphaPow u
  · rw [gfMul_zero_left, gfMul_zero_left, gfMul_zero_left]
  obtain rfl | ⟨m, -, rfl⟩ := hb.eq_zero_or_alphaPow v
  · rw [gfMul_zero_right, gfMul_zero_left, gfMul_zero_right]
  obtain rfl | ⟨k, -, rfl⟩ := hb.eq_zero_or_alphaPow w
  · rw [gfMul_zero_right, gfMul_zero_right, gfMul_zero_right]
  simp only [gfMul_alphaPow hb, Nat.add_assoc]

theorem one_gfMul (u : Byte) : gfMul b 1 u = u := by rw [gfMul_comm hb, gfMul_one hb]

theorem gfMul_eq_zero {u v : Byte} : gfMul b u v = 0 ↔ u = 0 ∨ v = 0 := by
  refine ⟨fun h => ?_, ?_⟩
  · by_contra hne
    obtain ⟨hu, hv⟩ := not_or.1 hne
    exact hb.tables.alphaPow_ne_zero _ ((gfMul_eq_alphaPow hb hu hv).symm.trans h)
  · rintro (rfl | rfl)
    · exact gfMul_zero_left b v
    · exact gfMul_zero_right b u

/-- The inverse of a nonzero byte. -/
theorem gfDiv_one_gfMul {v : Byte} (hv : v ≠ 0) : gfMul b (gfDiv b 1 v) v = 1 := by
  rw [gfMul_comm hb, ← gfDiv_eq_gfMul hb v hv, gfDiv_self hb hv]

theorem gfDiv_one_ne_zero {v : Byte} (hv : v ≠ 0) : gfDiv b 1 v ≠ 0 := by
  intro h
  have hone := gfDiv_one_gfMul hb hv
  rw [h, gfMul_zero_left] at hone
  exact absurd hone (by decide)

theorem gfDiv_gfMul_self (u : Byte) {v : Byte} (hv : v ≠ 0) : gfMul b (gfDiv b u v) v = u := by
  rw [gfDiv_eq_gfMul hb u hv, gfMul_assoc hb, gfDiv_one_gfMul hb hv, gfMul_one hb]

theorem gfMul_xorAll {α : Type} (beta : Byte) (f : α → Byte) (l : List α) :
    gfMul b beta (xorAll (l.map f)) = xorAll (l.map fun x => gfMul b beta (f x)) := by
  induction l with
  | nil => exact gfMul_zero_right b beta
  | cons x l ih => rw [List.map_cons, xorAll_cons, gfMul_xor hb, ih]; rfl

end

/-! ### Byte strings entry by entry -/

section
variable {b : Build} {x z : List Byte} {beta : Byte}

theorem length_xorBytes (h : x.length = z.length) : (xorBytes x z).length = x.length := by
  rw [xorBytes, List.length_zipWith, h, Nat.min_self]

theorem getD_xorBytes (h : x.length = z.length) (k : Nat) : (xorBytes x z).getD k 0 = x.getD k 0 ^^^ z.getD k 0 := by
  rw [xorBytes, List.getD_eq_getElem?_getD, List.getElem?_zipWith, List.getD_eq_getElem?_getD, List.getD_eq_getElem?_getD]
  by_cases hk : k < x.length
  · rw [List.getElem?_eq_getElem hk, List.getElem?_eq_getElem (h ▸ hk)]
    rfl
  · rw [List.getElem?_eq_none (Nat.le_of_not_lt hk), List.getElem?_eq_none (h ▸ Nat.le_of_not_lt hk)]
    rfl

@[simp] theorem length_scaleBytes : (scaleBytes b beta x).length = x.length := List.length_map _

theorem getD_scaleBytes (k : Nat) : (scaleBytes b beta x).getD k 0 = gfMul b beta (x.getD k 0) := by
  rw [scaleBytes, List.getD_eq_getElem?_getD, List.getElem?_map, List.getD_eq_getElem?_getD]
  cases x[k]? with
  | none => exact (gfMul_zero_right b beta).symm
  | some v => rfl

theorem length_axpyBytes (h : x.length = z.length) : (axpyBytes b x beta z).length = x.length :=
  length_xorBytes (h.trans length_scaleBytes.symm)

theorem getD_axpyBytes (h : x.length = z.length) (k : Nat) :
    (axpyBytes b x beta z).getD k 0 = x.getD k 0 ^^^ gfMul b beta (z.getD k 0) := by
  rw [axpyBytes, getD_xorBytes (h.trans length_scaleBytes.symm), getD_scaleBytes]

/-- Division by a nonzero byte is multiplication by its inverse. -/
theorem divBytes_eq_scaleBytes (hb : BuildOk b) (hbeta : beta ≠ 0) : divBytes b x beta = scaleBytes b (gfDiv b 1 beta) x :=
  List.map_congr_left fun v _ => by rw [gfDiv_eq_gfMul hb v hbeta, gfMul_comm hb]

@[simp] theorem length_divBytes : (divBytes b x beta).length = x.length := List.length_map _

theorem getD_divBytes (k : Nat) : (divBytes b x beta).getD k 0 = gfDiv b (x.getD k 0) beta := by
  rw [divBytes, List.getD_eq_getElem?_getD, List.getElem?_map, List.getD_eq_getElem?_getD]
  cases x[k]? with
  | none => exact (gfDiv_zero_left b beta).symm
  | some v => rfl

/-- Rows of one length are the same when their entries are. -/
theorem eq_of_getD (h : x.length = z.length) (hget : ∀ j < x.length, x.getD j 0 = z.getD j 0) : x = z := by
  refine List.ext_getElem h fun j hx hz => ?_
  have := hget j hx
  rwa [List.getD_eq_getElem _ _ hx, List.getD_eq_getElem _ _ hz] at this

end

theorem getD_set {α : Type} {l : List α} {i : Nat} (hi : i < l.length) (v d : α) (j : Nat) :
    (l.set i v).getD j d = if j = i then v else l.getD j d := by
  rw [List.getD_eq_getElem?_getD, List.getElem?_set, List.getD_eq_getElem?_getD]
  by_cases hj : j = i
  · simp [hj, hi]
  · rw [if_neg hj, if_neg (Ne.symm hj)]

/-! ### The value of a row -/

/-- The sum over the columns j of the row's entry times y j: a row as a linear function. -/
def rowDot (b : Build) (row : Row) (y : Nat → Byte) : Byte :=
  xorAll ((List.range row.length).map fun j => gfMul b (row.getD j 0) (y j))

/-- `rowDot` is the dot product of the claims, with the vector given as a function. -/
theorem dot_eq_rowDot (b : Build) (row x : List Byte) : dot b row x = rowDot b row fun j => x.getD j 0 := rfl

theorem rowDot_congr {b : Build} {row : Row} {y z : Nat → Byte} (h : ∀ j < row.length, y j = z j) :
    rowDot b row y = rowDot b row z :=
  xorAll_range_congr fun j hj => by rw [h j hj]

section
variable {b : Build} (hb : BuildOk b)
include hb

theorem rowDot_scaleBytes (beta : Byte) (row : Row) (y : Nat → Byte) :
    rowDot b (scaleBytes b beta row) y = gfMul b beta (rowDot b row y) := by
  rw [rowDot, rowDot, length_scaleBytes, gfMul_xorAll hb]
  simp only [getD_scaleBytes, gfMul_assoc hb]

theorem rowDot_axpyBytes {x z : Row} (h : x.length = z.length) (beta : Byte) (y : Nat → Byte) :
    rowDot b (axpyBytes b x beta z) y = rowDot b x y ^^^ gfMul b beta (rowDot b z y) := by
  rw [rowDot, length_axpyBytes h, rowDot, rowDot, gfMul_xorAll hb, ← h, ← xorAll_map_xor]
  refine xorAll_range_congr fun j _ => ?_
  rw [getD_axpyBytes h, gfMul_comm hb _ (y j), gfMul_xor hb, gfMul_comm hb (y j), gfMul_comm hb (y j), gfMul_assoc hb]

/-- A row of the identity picks its column. -/
theorem rowDot_unit {row : Row} {c : Nat} (hc : c < row.length) (h : ∀ j < row.length, row.getD j 0 = if j = c then 1 else 0)
    (y : Nat → Byte) : rowDot b row y = y c := by
  rw [rowDot, xorAll_range_single hc fun j hj hne => by rw [h j hj, if_neg hne, gfMul_zero_left], h c hc, if_pos rfl,
    one_gfMul hb]

end

/-! ### Exchanging two places of a list -/

section
variable {α : Type} {l : List α} {i j : Nat} (hi : i < l.length) (hj : j < l.length)
include hi hj

theorem swapAt_eq_set : swapAt l i j = (l.set i l[j]).set j l[i] := by
  rw [swapAt, List.getElem?_eq_getElem hi, List.getElem?_eq_getElem hj]

theorem swapAt_perm : (swapAt l i j).Perm l := by
  rw [swapAt_eq_set hi hj]
  exact List.set_set_perm hi hj

theorem getD_swapAt (k : Nat) (d : α) : (swapAt l i j).getD k d = l.getD (Equiv.swap i j k) d := by
  rw [swapAt_eq_set hi hj, getD_set (by rwa [List.length_set]), getD_set hi]
  by_cases hkj : k = j
  · rw [if_pos hkj, hkj, Equiv.swap_apply_right, List.getD_eq_getElem _ _ hi]
  · by_cases hki : k = i
    · rw [if_neg hkj, if_pos hki, hki, Equiv.swap_apply_left, List.getD_eq_getElem _ _ hj]
    · rw [if_neg hkj, if_neg hki, Equiv.swap_apply_of_ne_of_ne hki hkj]

end

/-! Exchanging two columns of all rows (R220). -/

theorem getD_map_swapAt (rows : List Row) (i j r : Nat) :
    (rows.map fun row => swapAt row i j).getD r [] = swapAt (rows.getD r []) i j := by
  rw [List.getD_eq_getElem?_getD, List.getElem?_map, List.getD_eq_getElem?_getD]
  cases rows[r]? <;> rfl

theorem entryOf_map_swapAt {rows : List Row} {l : Nat} (hlen : ∀ r < rows.length, (rows.getD r []).length = l) {i j : Nat}
    (hi : i < l) (hj : j < l) (q c : Nat) :
    entryOf (rows.map fun row => swapAt row i j) q c = entryOf rows q (Equiv.swap i j c) := by
  rw [entryOf, getD_map_swapAt, entryOf]
  by_cases hq : q < rows.length
  · exact getD_swapAt (hlen q hq ▸ hi) (hlen q hq ▸ hj) c 0
  · rw [List.getD_eq_default _ _ (Nat.le_of_not_lt hq)]
    rfl

/-! Exchanges of numbers. -/

/-- An exchange inside a window of places keeps the window. -/
theorem swap_mem_window {lo hi i j k : Nat} (h1 : lo ≤ i ∧ i < hi) (h2 : lo ≤ j ∧ j < hi) (hk : lo ≤ k ∧ k < hi) :
    lo ≤ Equiv.swap i j k ∧ Equiv.swap i j k < hi := by
  rw [Equiv.swap_apply_def]
  split
  · exact h2
  · split
    · exact h1
    · exact hk

theorem swap_of_notMem_window {lo hi i j k : Nat} (h1 : lo ≤ i ∧ i < hi) (h2 : lo ≤ j ∧ j < hi) (hk : k < lo ∨ hi ≤ k) :
    Equiv.swap i j k = k :=
  Equiv.swap_apply_of_ne_of_ne (by omega) (by omega)

theorem swap_lt {n i j k : Nat} (hi : i < n) (hj : j < n) (hk : k < n) : Equiv.swap i j k < n :=
  (swap_mem_window ⟨i.zero_le, hi⟩ ⟨j.zero_le, hj⟩ ⟨k.zero_le, hk⟩).2

theorem xorAll_perm {us vs : List Byte} (h : us.Perm vs) : xorAll us = xorAll vs := h.foldr_eq 0

/-- The order of the columns does not matter for a sum over them. -/
theorem xorAll_range_swap {n i j : Nat} (hi : i < n) (hj : j < n) (f : Nat → Byte) :
    xorAll ((List.range n).map fun k => f (Equiv.swap i j k)) = xorAll ((List.range n).map f) := by
  have hperm : ((List.range n).map (Equiv.swap i j)).Perm (List.range n) := by
    rw [List.perm_ext_iff_of_nodup (List.nodup_range.map (Equiv.injective _)) List.nodup_range]
    intro k
    rw [List.mem_map, List.mem_range]
    exact ⟨fun ⟨q, hq, hk⟩ => hk ▸ swap_lt hi hj (List.mem_range.1 hq),
      fun hk => ⟨_, List.mem_range.2 (swap_lt hi hj hk), Equiv.swap_apply_self i j k⟩⟩
  rw [← xorAll_perm (hperm.map f), List.map_map]
  rfl

/-! ### The sizes of a solver state -/

/-- A state of the solver for n rows, l columns and symbols of t bytes: d labels every row with its own row of D, and c
permutes the columns (R220). -/
structure Solver.Sized (n l t : Nat) (st : Solver) : Prop where
  rowsA : st.a.length = n
  rowsX : st.x.length = n
  rowsD : st.d.length = n
  labels : st.rowD.Perm (List.range n)
  cols : st.permC.Perm (List.range l)
  lengthA : ∀ r < n, (st.a.getD r []).length = l
  lengthX : ∀ r < n, (st.x.getD r []).length = l
  lengthD : ∀ r < n, (st.d.getD r []).length = t

namespace Solver.Sized

variable {n l t : Nat} {st : Solver}

theorem length_rowD (h : st.Sized n l t) : st.rowD.length = n := by rw [h.labels.length_eq, List.length_range]

theorem length_permC (h : st.Sized n l t) : st.permC.length = l := by rw [h.cols.length_eq, List.length_range]

theorem label_lt (h : st.Sized n l t) {r : Nat} (hr : r < n) : st.label r < n := by
  have hlen := h.length_rowD
  rw [Solver.label, List.getD_eq_getElem _ _ (hlen ▸ hr), ← List.mem_range, ← h.labels.mem_iff]
  exact List.getElem_mem _

theorem label_inj (h : st.Sized n l t) {r q : Nat} (hr : r < n) (hq : q < n) (heq : st.label r = st.label q) : r = q := by
  have hlen := h.length_rowD
  rw [Solver.label, Solver.label, List.getD_eq_getElem _ _ (hlen ▸ hr), List.getD_eq_getElem _ _ (hlen ▸ hq)] at heq
  exact (h.labels.nodup_iff.2 List.nodup_range).getElem_inj_iff.1 heq

theorem length_rhs (h : st.Sized n l t) {r : Nat} (hr : r < n) : (st.rhs r).length = t := h.lengthD _ (h.label_lt hr)

end Solver.Sized

/-! ### Replacing a row -/

/-- A[r] <- v; D[d[r]] <- w. -/
def Solver.withRow (st : Solver) (r : Nat) (v : Row) (w : Symbol) : Solver := (st.setRow r v).setRhs r w

theorem Solver.addScaled_eq_withRow (b : Build) (st : Solver) (r src : Nat) (beta : Byte) : st.addScaled b r src beta =
    st.withRow r (axpyBytes b (st.a.getD r []) beta (st.a.getD src [])) (axpyBytes b (st.rhs r) beta (st.rhs src)) := rfl

theorem Solver.normalizeRow_eq_withRow (b : Build) (st : Solver) (r : Nat) : st.normalizeRow b r =
    st.withRow r (divBytes b (st.a.getD r []) (entryOf st.a r r)) (divBytes b (st.rhs r) (entryOf st.a r r)) := rfl

namespace Solver.Sized

variable {n l t : Nat} {st : Solver} {r : Nat} {v : Row} {w : Symbol}

theorem getD_withRow (h : st.Sized n l t) (hr : r < n) (q : Nat) :
    (st.withRow r v w).a.getD q [] = if q = r then v else st.a.getD q [] := getD_set (h.rowsA.symm ▸ hr) _ _ _

theorem rhs_withRow (h : st.Sized n l t) (hr : r < n) {q : Nat} (hq : q < n) :
    (st.withRow r v w).rhs q = if q = r then w else st.rhs q := by
  have hset : (st.withRow r v w).rhs q = if st.label q = st.label r then w else st.rhs q :=
    getD_set (h.rowsD.symm ▸ h.label_lt hr) _ _ _
  rw [hset]
  exact if_congr ⟨h.label_inj hq hr, congrArg _⟩ rfl rfl

theorem withRow (h : st.Sized n l t) (hr : r < n) (hv : v.length = l) (hw : w.length = t) :
    (st.withRow r v w).Sized n l t where
  rowsA := (List.length_set ..).trans h.rowsA
  rowsX := h.rowsX
  rowsD := (List.length_set ..).trans h.rowsD
  labels := h.labels
  cols := h.cols
  lengthA q hq := by
    rw [h.getD_withRow hr]
    split
    · exact hv
    · exact h.lengthA q hq
  lengthX := h.lengthX
  lengthD q hq := by
    refine (congrArg _ (getD_set (h.rowsD.symm ▸ h.label_lt hr) _ _ _)).trans ?_
    split
    · exact hw
    · exact h.lengthD q hq

end Solver.Sized

/-! ### The solutions of a state's system -/

/-- What is missing in row r for the columns' symbols to solve it, in byte k of the symbols: y c is byte k of the symbol of
column c, before the columns were permuted. -/
def Solver.residual (b : Build) (y : Nat → Byte) (k : Nat) (st : Solver) (r : Nat) : Byte :=
  rowDot b (st.a.getD r []) (fun j => y (st.permC.getD j 0)) ^^^ (st.rhs r).getD k 0

/-- The columns' symbols solve the n rows in byte k. -/
def Solver.Solves (b : Build) (n : Nat) (y : Nat → Byte) (k : Nat) (st : Solver) : Prop :=
  ∀ r < n, st.residual b y k r = 0

/-- A state of these sizes whose system has the same solutions. -/
structure Solver.Follows (b : Build) (n l t : Nat) (st st' : Solver) : Prop where
  sized : st'.Sized n l t
  solves : ∀ y k, st'.Solves b n y k ↔ st.Solves b n y k

namespace Solver.Follows

variable {b : Build} {n l t : Nat} {st st' st'' : Solver}

theorem refl (h : st.Sized n l t) : Follows b n l t st st := ⟨h, fun _ _ => Iff.rfl⟩

theorem trans (h : Follows b n l t st st') (h' : Follows b n l t st' st'') : Follows b n l t st st'' :=
  ⟨h'.sized, fun y k => (h'.solves y k).trans (h.solves y k)⟩

end Solver.Follows

namespace Solver.Sized

variable {b : Build} {n l t : Nat} {st : Solver} {r : Nat}

/-- A row may be replaced by one that, where the other rows are solved, is solved exactly when the old one is. -/
theorem withRow_follows (h : st.Sized n l t) (hr : r < n) {v : Row} {w : Symbol} (hv : v.length = l) (hw : w.length = t)
    (heq : ∀ y k, (∀ q < n, q ≠ r → st.residual b y k q = 0) →
      (rowDot b v (fun j => y (st.permC.getD j 0)) ^^^ w.getD k 0 = 0 ↔ st.residual b y k r = 0)) :
    st.Follows b n l t (st.withRow r v w) := by
  refine ⟨h.withRow hr hv hw, fun y k => ?_⟩
  have hother {q : Nat} (hq : q < n) (hne : q ≠ r) : (st.withRow r v w).residual b y k q = st.residual b y k q := by
    rw [residual, h.getD_withRow hr, h.rhs_withRow hr hq, if_neg hne, if_neg hne]
    rfl
  have hself : (st.withRow r v w).residual b y k r = rowDot b v (fun j => y (st.permC.getD j 0)) ^^^ w.getD k 0 := by
    rw [residual, h.getD_withRow hr, h.rhs_withRow hr hr, if_pos rfl, if_pos rfl]
    rfl
  constructor
  · intro hsolves
    have hrest : ∀ q < n, q ≠ r → st.residual b y k q = 0 := fun q hq hne => (hother hq hne).symm.trans (hsolves q hq)
    intro q hq
    by_cases hqr : q = r
    · exact hqr ▸ (heq y k hrest).1 (hself.symm.trans (hsolves r hr))
    · exact hrest q hq hqr
  · intro hsolves q hq
    by_cases hqr : q = r
    · exact hqr ▸ hself.trans ((heq y k fun q hq _ => hsolves q hq).2 (hsolves r hr))
    · exact (hother hq hqr).trans (hsolves q hq)

/-- A multiple of another row may be added (R229, R232). -/
theorem addScaled_follows (hb : BuildOk b) (h : st.Sized n l t) (hr : r < n) {src : Nat} (hsrc : src < n) (hne : src ≠ r)
    (beta : Byte) : st.Follows b n l t (st.addScaled b r src beta) := by
  have hlen : (st.a.getD r []).length = (st.a.getD src []).length := by rw [h.lengthA r hr, h.lengthA src hsrc]
  have hrhs : (st.rhs r).length = (st.rhs src).length := by rw [h.length_rhs hr, h.length_rhs hsrc]
  refine h.withRow_follows hr ((length_axpyBytes hlen).trans (h.lengthA r hr))
    ((length_axpyBytes hrhs).trans (h.length_rhs hr)) fun y k hrest => ?_
  have hzero : st.residual b y k src = 0 := hrest src hsrc hne
  have hsum : rowDot b (axpyBytes b (st.a.getD r []) beta (st.a.getD src [])) (fun j => y (st.permC.getD j 0)) ^^^
      (axpyBytes b (st.rhs r) beta (st.rhs src)).getD k 0 =
      st.residual b y k r ^^^ gfMul b beta (st.residual b y k src) := by
    rw [rowDot_axpyBytes hb hlen, getD_axpyBytes hrhs, residual, residual, gfMul_xor hb]
    ac_rfl
  rw [hsum, hzero, gfMul_zero_right, show (0 : Byte) = 0#8 from rfl, BitVec.xor_zero]

/-- A row may be divided by a nonzero byte (R232, R235). -/
theorem divide_follows (hb : BuildOk b) (h : st.Sized n l t) (hr : r < n) {beta : Byte} (hbeta : beta ≠ 0) :
    st.Follows b n l t (st.withRow r (divBytes b (st.a.getD r []) beta) (divBytes b (st.rhs r) beta)) := by
  refine h.withRow_follows hr (length_divBytes.trans (h.lengthA r hr)) (length_divBytes.trans (h.length_rhs hr))
    fun y k _ => ?_
  rw [divBytes_eq_scaleBytes hb hbeta, divBytes_eq_scaleBytes hb hbeta, rowDot_scaleBytes hb, getD_scaleBytes,
    ← gfMul_xor hb, gfMul_eq_zero hb, or_iff_right (gfDiv_one_ne_zero hb hbeta)]
  rfl

/-- Two rows and their labels may be exchanged; what becomes of X does not matter (R227, R232). -/
theorem swapLabels_follows (h : st.Sized n l t) {i j : Nat} (hi : i < n) (hj : j < n) {x : List Row} (hx : x.length = n)
    (hlen : ∀ r < n, (x.getD r []).length = l) :
    st.Follows b n l t { st with a := swapAt st.a i j, x := x, rowD := swapAt st.rowD i j } := by
  have hrow (r : Nat) : (swapAt st.a i j).getD r [] = st.a.getD (Equiv.swap i j r) [] :=
    getD_swapAt (h.rowsA.symm ▸ hi) (h.rowsA.symm ▸ hj) r []
  have hlabels : (swapAt st.rowD i j).Perm st.rowD :=
    swapAt_perm (h.length_rowD.symm ▸ hi) (h.length_rowD.symm ▸ hj)
  have hlabel (r : Nat) : (swapAt st.rowD i j).getD r 0 = st.label (Equiv.swap i j r) :=
    getD_swapAt (h.length_rowD.symm ▸ hi) (h.length_rowD.symm ▸ hj) r 0
  have hrows : (swapAt st.a i j).length = n :=
    (swapAt_perm (h.rowsA.symm ▸ hi) (h.rowsA.symm ▸ hj)).length_eq.trans h.rowsA
  have hres (y : Nat → Byte) (k r : Nat) :
      Solver.residual b y k { st with a := swapAt st.a i j, x := x, rowD := swapAt st.rowD i j } r =
        st.residual b y k (Equiv.swap i j r) := by
    simp only [residual, rhs, label, hrow, hlabel]
  refine ⟨⟨hrows, hx, h.rowsD, hlabels.trans h.labels, h.cols,
    fun r hr => (congrArg List.length (hrow r)).trans (h.lengthA _ (swap_lt hi hj hr)), hlen, h.lengthD⟩,
    fun y k => ⟨fun hs r hr => ?_, fun hs r hr => ?_⟩⟩
  · have := hs _ (swap_lt hi hj hr)
    rwa [hres, Equiv.swap_apply_self] at this
  · rw [hres]
    exact hs _ (swap_lt hi hj hr)

theorem swapRows_follows (h : st.Sized n l t) {i j : Nat} (hi : i < n) (hj : j < n) :
    st.Follows b n l t (st.swapRows i j) := by
  refine h.swapLabels_follows hi hj ?_ fun r hr => ?_
  · exact (swapAt_perm (h.rowsX.symm ▸ hi) (h.rowsX.symm ▸ hj)).length_eq.trans h.rowsX
  · rw [getD_swapAt (h.rowsX.symm ▸ hi) (h.rowsX.symm ▸ hj)]
    exact h.lengthX _ (swap_lt hi hj hr)

/-- Two columns may be exchanged in all rows together with their labels (R220). -/
theorem swapCols_follows (h : st.Sized n l t) {i j : Nat} (hi : i < l) (hj : j < l) :
    st.Follows b n l t (st.swapCols i j) := by
  have hlength {row : Row} (hrow : row.length = l) : (swapAt row i j).length = l :=
    (swapAt_perm (hrow.symm ▸ hi) (hrow.symm ▸ hj)).length_eq.trans hrow
  have hcols : (swapAt st.permC i j).Perm st.permC :=
    swapAt_perm (h.length_permC.symm ▸ hi) (h.length_permC.symm ▸ hj)
  have hcol (c : Nat) : (swapAt st.permC i j).getD c 0 = st.permC.getD (Equiv.swap i j c) 0 :=
    getD_swapAt (h.length_permC.symm ▸ hi) (h.length_permC.symm ▸ hj) c 0
  have hres (y : Nat → Byte) (k : Nat) {r : Nat} (hr : r < n) :
      (st.swapCols i j).residual b y k r = st.residual b y k r := by
    have hrow := h.lengthA r hr
    have hentry (c : Nat) : (swapAt (st.a.getD r []) i j).getD c 0 = (st.a.getD r []).getD (Equiv.swap i j c) 0 :=
      getD_swapAt (hrow.symm ▸ hi) (hrow.symm ▸ hj) c 0
    have hdot : rowDot b (swapAt (st.a.getD r []) i j) (fun c => y (st.permC.getD (Equiv.swap i j c) 0)) =
        rowDot b (st.a.getD r []) (fun c => y (st.permC.getD c 0)) := by
      rw [rowDot, rowDot, hlength hrow, hrow]
      simp only [hentry]
      exact xorAll_range_swap hi hj fun c => gfMul b ((st.a.getD r []).getD c 0) (y (st.permC.getD c 0))
    simp only [residual, swapCols, getD_map_swapAt, hcol, hdot, rhs, label]
  refine ⟨⟨(List.length_map _).trans h.rowsA, (List.length_map _).trans h.rowsX, h.rowsD, h.labels, hcols.trans h.cols,
    fun r hr => ?_, fun r hr => ?_, h.lengthD⟩, fun y k => forall₂_congr fun r hr => by rw [hres y k hr]⟩
  · exact (congrArg _ (getD_map_swapAt _ i j r)).trans (hlength (h.lengthA r hr))
  · exact (congrArg _ (getD_map_swapAt _ i j r)).trans (hlength (h.lengthX r hr))

/-! ### The entries after an operation -/

theorem entryOf_addScaled (h : st.Sized n l t) (hr : r < n) {src : Nat} (hsrc : src < n) (beta : Byte) (q c : Nat) :
    entryOf (st.addScaled b r src beta).a q c =
      if q = r then entryOf st.a r c ^^^ gfMul b beta (entryOf st.a src c) else entryOf st.a q c := by
  rw [addScaled_eq_withRow, entryOf, h.getD_withRow hr]
  split
  · rw [getD_axpyBytes (by rw [h.lengthA r hr, h.lengthA src hsrc])]
    rfl
  · rfl

theorem entryOf_normalizeRow (h : st.Sized n l t) (hr : r < n) (q c : Nat) :
    entryOf (st.normalizeRow b r).a q c =
      if q = r then gfDiv b (entryOf st.a r c) (entryOf st.a r r) else entryOf st.a q c := by
  rw [normalizeRow_eq_withRow, entryOf, h.getD_withRow hr]
  split
  · exact getD_divBytes c
  · rfl

theorem entryOf_swapRows (h : st.Sized n l t) {i j : Nat} (hi : i < n) (hj : j < n) (q c : Nat) :
    entryOf (st.swapRows i j).a q c = entryOf st.a (Equiv.swap i j q) c ∧
      entryOf (st.swapRows i j).x q c = entryOf st.x (Equiv.swap i j q) c :=
  ⟨congrArg (·.getD c 0) (getD_swapAt (h.rowsA.symm ▸ hi) (h.rowsA.symm ▸ hj) q []),
    congrArg (·.getD c 0) (getD_swapAt (h.rowsX.symm ▸ hi) (h.rowsX.symm ▸ hj) q [])⟩

theorem entryOf_swapCols (h : st.Sized n l t) {i j : Nat} (hi : i < l) (hj : j < l) (q c : Nat) :
    entryOf (st.swapCols i j).a q c = entryOf st.a q (Equiv.swap i j c) ∧
      entryOf (st.swapCols i j).x q c = entryOf st.x q (Equiv.swap i j c) :=
  ⟨entryOf_map_swapAt (fun r hr => h.lengthA r (h.rowsA ▸ hr)) hi hj q c,
    entryOf_map_swapAt (fun r hr => h.lengthX r (h.rowsX ▸ hr)) hi hj q c⟩

end Solver.Sized

end Sys2Proof.Machine
end

section
/-! PROOFS. Phase 1 of the solver (spec/44_pi_solver.md R222 to R231): the rows it has chosen are triangular in X and diagonal in A
up to the inactivated columns, and the system keeps its solutions. -/

namespace Sys2Proof.Machine

/-! ### Clearing a column with the multiples of one row (R229, R232) -/

/-- A loop that brings about P k at each of its steps k, never undoes one, and keeps M, ends with all of them. -/
theorem foldl_establishes {σ : Type} {f : σ → Nat → σ} {M : σ → Prop} {P : Nat → σ → Prop} {ks : List Nat}
    (hstep : ∀ st, M st → ∀ k ∈ ks, M (f st k) ∧ P k (f st k) ∧ ∀ j, P j st → P j (f st k)) {st : σ} (h : M st) :
    M (ks.foldl f st) ∧ ∀ k ∈ ks, P k (ks.foldl f st) := by
  induction ks generalizing st with
  | nil => exact ⟨h, fun k hk => absurd hk List.not_mem_nil⟩
  | cons k ks ih =>
    obtain ⟨hM, hP, -⟩ := hstep st h k List.mem_cons_self
    have hrest := fun st hst j hj => hstep st hst j (List.mem_cons_of_mem k hj)
    obtain ⟨hM', hP'⟩ := ih hrest hM
    have hkept : M (ks.foldl f (f st k)) ∧ P k (ks.foldl f (f st k)) := by
      refine List.foldlRecOn ks f (motive := fun st => M st ∧ P k st) ⟨hM, hP⟩ fun st hst j hj => ?_
      obtain ⟨hMj, -, hkeep⟩ := hrest st hst.1 j hj
      exact ⟨hMj, hkeep k hst.2⟩
    exact ⟨hM', List.forall_mem_cons.2 ⟨hkept.2, hP'⟩⟩

/-- In a state with the same solutions only the rows `ks` other than row `src` changed, and those only in columns where row
`src` is nonzero. -/
structure Solver.AddedFrom (b : Build) (n l t src : Nat) (ks : List Nat) (st st' : Solver) : Prop where
  follows : st.Follows b n l t st'
  x : st'.x = st.x
  kept : ∀ r c, r = src ∨ r ∉ ks ∨ entryOf st.a src c = 0 → entryOf st'.a r c = entryOf st.a r c

/-- One step of a loop that clears a column: a row that has to change takes the multiple of row `src` that makes its entry
vanish. -/
def Solver.ClearStep (b : Build) (src col k : Nat) (st st' : Solver) : Prop :=
  (k = src ∨ entryOf st.a k col = 0) ∧ st' = st ∨
    k ≠ src ∧ ∃ beta, gfMul b beta (entryOf st.a src col) = entryOf st.a k col ∧ st' = st.addScaled b k src beta

section
variable {b : Build} (hb : BuildOk b) {n l t src : Nat} {st : Solver}
include hb

theorem Solver.ClearStep.spec {ks : List Nat} (hks : ∀ k ∈ ks, k < n) (hsrc : src < n) {st0 : Solver} {col k : Nat}
    (h : st0.AddedFrom b n l t src ks st) (hk : k ∈ ks) {st' : Solver} (hstep : Solver.ClearStep b src col k st st') :
    st0.AddedFrom b n l t src ks st' ∧ (k ≠ src → entryOf st'.a k col = 0) ∧
      ∀ j, (j ≠ src → entryOf st.a j col = 0) → j ≠ src → entryOf st'.a j col = 0 := by
  obtain ⟨hskip, rfl⟩ | ⟨hne, beta, hbeta, rfl⟩ := hstep
  · exact ⟨h, hskip.resolve_left, fun j => id⟩
  have hentry := h.follows.sized.entryOf_addScaled (b := b) (hks k hk) hsrc beta
  have hzero : entryOf (st.addScaled b k src beta).a k col = 0 := by
    rw [hentry, if_pos rfl, hbeta]
    exact BitVec.xor_self
  refine ⟨⟨h.follows.trans (h.follows.sized.addScaled_follows hb (hks k hk) hsrc hne.symm beta), h.x, fun r c hr => ?_⟩,
    fun _ => hzero, fun j hj hjs => ?_⟩
  · rw [hentry, ← h.kept r c hr]
    split
    · rename_i hrk
      subst hrk
      have hsrc0 : entryOf st0.a src c = 0 := (hr.resolve_left hne).resolve_left (not_not.2 hk)
      rw [h.kept src c (.inl rfl), hsrc0, gfMul_zero_right]
      exact BitVec.xor_zero
    · rfl
  · rw [hentry]
    split
    · rename_i hjk
      subst hjk
      rw [hbeta]
      exact BitVec.xor_self
    · exact hj hjs

/-- A loop of such steps clears the column in all its rows. -/
theorem Solver.Sized.foldl_clearStep (h : st.Sized n l t) {ks : List Nat} (hks : ∀ k ∈ ks, k < n) (hsrc : src < n) {col : Nat}
    {f : Solver → Nat → Solver} (hf : ∀ st', entryOf st'.a src col = entryOf st.a src col →
      ∀ k ∈ ks, Solver.ClearStep b src col k st' (f st' k)) :
    st.AddedFrom b n l t src ks (ks.foldl f st) ∧ ∀ k ∈ ks, k ≠ src → entryOf (ks.foldl f st).a k col = 0 :=
  foldl_establishes (M := st.AddedFrom b n l t src ks) (P := fun k st' => k ≠ src → entryOf st'.a k col = 0)
    (fun _ hst k hk => (hf _ (hst.kept src col (.inl rfl)) k hk).spec hb hks hsrc hst hk) ⟨.refl h, rfl, fun _ _ _ => rfl⟩

theorem eliminateBelow_spec (h : st.Sized n l t) {i : Nat} (hi : i < n) (hpivot : entryOf st.a i i ≠ 0) :
    st.AddedFrom b n l t i (List.range' (i + 1) (n - (i + 1))) (eliminateBelow b st i) ∧
      ∀ k ∈ List.range' (i + 1) (n - (i + 1)), k ≠ i → entryOf (eliminateBelow b st i).a k i = 0 := by
  rw [eliminateBelow, h.rowsA]
  refine h.foldl_clearStep hb (fun k hk => ?_) hi fun st' hst' k hk => ?_
  · rw [List.mem_range'_1] at hk
    omega
  · rw [List.mem_range'_1] at hk
    split
    · exact .inl ⟨.inr ‹_›, rfl⟩
    · exact .inr ⟨by omega, _, gfDiv_gfMul_self hb _ (hst' ▸ hpivot), rfl⟩

end

/-! ### The choice of a row (R224 to R226) -/

section
variable {m : SolveDims} {st : Solver} {i hi k r : Nat}

theorem windowRows_spec {hdpc : Bool} (h : (k, r) ∈ windowRows m st i hi hdpc) :
    i ≤ k ∧ k < st.a.length ∧ 1 ≤ r ∧ r = nzCount (st.a.getD k []) i hi := by
  obtain ⟨hmem, hpos⟩ := List.mem_filter.1 h
  obtain ⟨q, hq, heq⟩ := List.mem_map.1 hmem
  obtain ⟨rfl, rfl⟩ := Prod.mk.inj heq
  rw [List.mem_range'_1] at hq
  exact ⟨hq.1, by omega, of_decide_eq_true (Bool.and_eq_true_iff.1 hpos).1, rfl⟩

/-- The row that the graph gives is one of the rows with two nonzeros. -/
theorem mem_of_graphChoice {rows : List (Nat × Nat)} (h : graphChoice (edgesOf st rows i hi) = some k) : (k, 2) ∈ rows := by
  obtain ⟨e, he, rfl⟩ := Option.map_eq_some_iff.1 h
  obtain ⟨q, hq, hedge⟩ := List.mem_filterMap.1 (List.mem_of_find?_eq_some he)
  obtain ⟨hmem, htwo⟩ := List.mem_filter.1 hq
  have hrow : e.row = q.1 := by
    split at hedge
    · exact (congrArg Edge.row (Option.some.inj hedge)).symm
    · cases hedge
  rw [hrow, ← beq_iff_eq.1 htwo]
  exact hmem

/-- A chosen row lies in the window's rows, and r is the number of its nonzeros there, at least one. -/
theorem chooseRow_spec (h : chooseRow m st i hi = some (k, r)) :
    i ≤ k ∧ k < st.a.length ∧ 1 ≤ r ∧ r = nzCount (st.a.getD k []) i hi := by
  suffices hmem : ∃ hdpc, (k, r) ∈ windowRows m st i hi hdpc from windowRows_spec hmem.choose_spec
  simp only [chooseRow] at h
  split at h
  · cases h
  obtain ⟨q, hq, heq⟩ := Option.map_eq_some_iff.1 h
  obtain ⟨rfl, rfl⟩ := Prod.mk.inj heq
  split at hq
  · rename_i hgraph
    exact ⟨false, hgraph.1 ▸ mem_of_graphChoice hq⟩
  · obtain ⟨p, hp, rfl⟩ := Option.map_eq_some_iff.1 hq
    have hcount := List.find?_some hp
    have hcand := List.mem_of_find?_eq_some hp
    rw [← beq_iff_eq.1 hcount]
    split at hcand
    · exact ⟨true, hcand⟩
    · exact ⟨false, hcand⟩

end

/-! ### The nonzeros of a window (R223) -/

/-- The columns of the window where a row is nonzero. -/
def windowSupport (row : Row) (i hi : Nat) : Finset Nat := (Finset.Ico i hi).filter fun j => row.getD j 0 ≠ 0

theorem mem_windowSupport {row : Row} {i hi j : Nat} :
    j ∈ windowSupport row i hi ↔ (i ≤ j ∧ j < hi) ∧ row.getD j 0 ≠ 0 := by
  rw [windowSupport, Finset.mem_filter, Finset.mem_Ico]

/-- nz counts the nonzeros of the window. -/
theorem nzCount_eq_card {row : Row} {i hi : Nat} (h : hi ≤ row.length) : nzCount row i hi = (windowSupport row i hi).card := by
  have hwindow : (row.take hi).drop i = (List.range' i (hi - i)).map (row.getD · 0) := by
    refine List.ext_getElem (by simp; omega) fun j hj _ => ?_
    rw [List.length_drop, List.length_take] at hj
    rw [List.getElem_drop, List.getElem_take, List.getElem_map, List.getElem_range'_1, List.getD_eq_getElem _ _ (by omega)]
  rw [nzCount, hwindow, List.countP_map, List.countP_eq_length_filter]
  refine congrArg List.length (List.filter_congr fun j _ => ?_)
  rw [Bool.eq_iff_iff]
  simp

/-- An exchange of two columns of the window does not change the number of a row's nonzeros. -/
theorem card_windowSupport_swap {i hi j1 j2 : Nat} (h1 : i ≤ j1 ∧ j1 < hi) (h2 : i ≤ j2 ∧ j2 < hi) {row row' : Row}
    (hrow : ∀ c, row'.getD c 0 = row.getD (Equiv.swap j1 j2 c) 0) :
    (windowSupport row' i hi).card = (windowSupport row i hi).card := by
  have hmem (c : Nat) : c ∈ windowSupport row' i hi ↔ Equiv.swap j1 j2 c ∈ windowSupport row i hi := by
    rw [mem_windowSupport, mem_windowSupport, hrow]
    refine and_congr_left fun _ => ⟨swap_mem_window h1 h2, fun hc => ?_⟩
    have := swap_mem_window h1 h2 hc
    rwa [Equiv.swap_apply_self] at this
  exact Finset.card_equiv (Equiv.swap j1 j2) hmem

/-! ### The shape of A and X during phase 1 -/

/-- After i steps of phase 1, with the window's columns [i, hi): A is diagonal in its first i rows and zero below them in its first
i columns; X is lower triangular in its first i rows; and the rows below are still those of X in the window, since only
rows that are zero there were added to them. -/
structure Phase1Shape (n i hi : Nat) (st : Solver) : Prop where
  diag : ∀ r < i, entryOf st.a r r ≠ 0
  zero : ∀ r < i, ∀ c < hi, c ≠ r → entryOf st.a r c = 0
  below : ∀ r, i ≤ r → r < n → ∀ c < i, entryOf st.a r c = 0
  diagX : ∀ r < i, entryOf st.x r r ≠ 0
  zeroX : ∀ r < i, ∀ c, r < c → c < hi → entryOf st.x r c = 0
  sameX : ∀ r, i ≤ r → r < n → ∀ c, i ≤ c → c < hi → entryOf st.x r c = entryOf st.a r c

namespace Phase1Shape

variable {b : Build} {n l t i hi : Nat} {st st' : Solver}

theorem init (n l hi : Nat) (a : List Row) (d : List Symbol) : Phase1Shape n 0 hi (Solver.init l a d) where
  diag r hr := absurd hr (Nat.not_lt_zero r)
  zero r hr := absurd hr (Nat.not_lt_zero r)
  below _ _ _ c hc := absurd hc (Nat.not_lt_zero c)
  diagX r hr := absurd hr (Nat.not_lt_zero r)
  zeroX r hr := absurd hr (Nat.not_lt_zero r)
  sameX _ _ _ _ _ _ := rfl

theorem swapRows (h : Phase1Shape n i hi st) (hs : st.Sized n l t) {k : Nat} (hin : i < n) (hik : i ≤ k) (hk : k < n) :
    Phase1Shape n i hi (st.swapRows i k) := by
  have hA (q c : Nat) := (hs.entryOf_swapRows hin hk q c).1
  have hX (q c : Nat) := (hs.entryOf_swapRows hin hk q c).2
  have hfix {r : Nat} (hr : r < i) : Equiv.swap i k r = r :=
    swap_of_notMem_window (lo := i) (hi := n) ⟨le_rfl, hin⟩ ⟨hik, hk⟩ (.inl hr)
  have hmove {r : Nat} (hr : i ≤ r) (hrn : r < n) : i ≤ Equiv.swap i k r ∧ Equiv.swap i k r < n :=
    swap_mem_window ⟨le_rfl, hin⟩ ⟨hik, hk⟩ ⟨hr, hrn⟩
  constructor
  · intro r hr
    rw [hA, hfix hr]
    exact h.diag r hr
  · intro r hr
    simp only [hA, hfix hr]
    exact h.zero r hr
  · intro r hr hrn
    simp only [hA]
    exact h.below _ (hmove hr hrn).1 (hmove hr hrn).2
  · intro r hr
    rw [hX, hfix hr]
    exact h.diagX r hr
  · intro r hr
    simp only [hX, hfix hr]
    exact h.zeroX r hr
  · intro r hr hrn
    simp only [hA, hX]
    exact h.sameX _ (hmove hr hrn).1 (hmove hr hrn).2

theorem swapCols (h : Phase1Shape n i hi st) (hs : st.Sized n l t) (hhi : hi ≤ l) {j1 j2 : Nat} (h1 : i ≤ j1 ∧ j1 < hi)
    (h2 : i ≤ j2 ∧ j2 < hi) : Phase1Shape n i hi (st.swapCols j1 j2) := by
  have hA (q c : Nat) := (hs.entryOf_swapCols (h1.2.trans_le hhi) (h2.2.trans_le hhi) q c).1
  have hX (q c : Nat) := (hs.entryOf_swapCols (h1.2.trans_le hhi) (h2.2.trans_le hhi) q c).2
  have hfix {c : Nat} (hc : c < i) : Equiv.swap j1 j2 c = c := swap_of_notMem_window h1 h2 (.inl hc)
  have hmove {c : Nat} (hc : i ≤ c) (hch : c < hi) : i ≤ Equiv.swap j1 j2 c ∧ Equiv.swap j1 j2 c < hi :=
    swap_mem_window h1 h2 ⟨hc, hch⟩
  constructor
  · intro r hr
    rw [hA, hfix hr]
    exact h.diag r hr
  · intro r hr c hc hne
    rw [hA]
    by_cases hci : c < i
    · rw [hfix hci]
      exact h.zero r hr c hc hne
    · have := hmove (Nat.le_of_not_lt hci) hc
      exact h.zero r hr _ this.2 (by omega)
  · intro r hr hrn c hc
    rw [hA, hfix hc]
    exact h.below r hr hrn c hc
  · intro r hr
    rw [hX, hfix hr]
    exact h.diagX r hr
  · intro r hr c hrc hc
    rw [hX]
    by_cases hci : c < i
    · rw [hfix hci]
      exact h.zeroX r hr c hrc hc
    · have := hmove (Nat.le_of_not_lt hci) hc
      exact h.zeroX r hr _ (by omega) this.2
  · intro r hr hrn c hci hc
    rw [hA, hX]
    exact h.sameX r hr hrn _ (hmove hci hc).1 (hmove hci hc).2

/-- The next shape: row i is zero in what remains of the window, so that its multiples change nothing there. -/
theorem eliminate (h : Phase1Shape n i hi st)
    (hadd : st.AddedFrom b n l t i (List.range' (i + 1) (n - (i + 1))) st')
    (hcol : ∀ k ∈ List.range' (i + 1) (n - (i + 1)), k ≠ i → entryOf st'.a k i = 0) {hi' : Nat} (hin : i < n) (hih : i < hi)
    (hle : hi' ≤ hi) (hpivot : entryOf st.a i i ≠ 0) (hzero : ∀ c, i < c → c < hi' → entryOf st.a i c = 0) :
    Phase1Shape n (i + 1) hi' st' := by
  have habove {r : Nat} (hr : r < i + 1) (c : Nat) : entryOf st'.a r c = entryOf st.a r c :=
    hadd.kept r c (.inr (.inl fun hmem => by rw [List.mem_range'_1] at hmem; omega))
  constructor
  · intro r hr
    rw [habove hr]
    obtain hlt | rfl := Nat.lt_succ_iff_lt_or_eq.1 hr
    · exact h.diag r hlt
    · exact hpivot
  · intro r hr c hc hne
    rw [habove hr]
    obtain hlt | rfl := Nat.lt_succ_iff_lt_or_eq.1 hr
    · exact h.zero r hlt c (hc.trans_le hle) hne
    · obtain hcr | hcr := Nat.lt_or_gt_of_ne hne
      · exact h.below r le_rfl hin c hcr
      · exact hzero c hcr hc
  · intro r hr hrn c hc
    obtain hlt | rfl := Nat.lt_succ_iff_lt_or_eq.1 hc
    · rw [hadd.kept r c (.inr (.inr (h.below i le_rfl hin c hlt)))]
      exact h.below r (Nat.le_of_succ_le hr) hrn c hlt
    · exact hcol r (List.mem_range'_1.2 (by omega)) (by omega)
  · intro r hr
    rw [hadd.x]
    obtain hlt | rfl := Nat.lt_succ_iff_lt_or_eq.1 hr
    · exact h.diagX r hlt
    · rwa [h.sameX r le_rfl hin r le_rfl hih]
  · intro r hr c hrc hc
    rw [hadd.x]
    obtain hlt | rfl := Nat.lt_succ_iff_lt_or_eq.1 hr
    · exact h.zeroX r hlt c hrc (hc.trans_le hle)
    · rw [h.sameX r le_rfl hin c hrc.le (hc.trans_le hle)]
      exact hzero c hrc hc
  · intro r hr hrn c hic hc
    rw [hadd.x, hadd.kept r c (.inr (.inr (hzero c hic hc)))]
    exact h.sameX r (Nat.le_of_succ_le hr) hrn c (Nat.le_of_succ_le hic) (hc.trans_le hle)

/-- The shape of the first i rows in their first i columns, when the window no longer matters. -/
theorem shrink (h : Phase1Shape n i hi st) (hle : i ≤ hi) : Phase1Shape n i i st where
  diag := h.diag
  zero r hr c hc := h.zero r hr c (hc.trans_le hle)
  below := h.below
  diagX := h.diagX
  zeroX r hr c hrc hc := h.zeroX r hr c hrc (hc.trans_le hle)
  sameX _ _ _ _ hc hci := absurd hci (Nat.not_lt_of_le hc)

end Phase1Shape

/-! ### Column placement (R228) -/

/-- A state that column exchanges in the window lead to: the same solutions, the same shape, and as many nonzeros of row i in
the window. -/
structure Solver.PlacedFrom (b : Build) (n l t i hi : Nat) (st st' : Solver) : Prop where
  follows : st.Follows b n l t st'
  shape : Phase1Shape n i hi st'
  count : (windowSupport (st'.a.getD i []) i hi).card = (windowSupport (st.a.getD i []) i hi).card

namespace Solver.PlacedFrom

variable {b : Build} {n l t i hi : Nat} {st st' : Solver}

theorem swapCols (h : st.PlacedFrom b n l t i hi st') (hhi : hi ≤ l) {j1 j2 : Nat} (h1 : i ≤ j1 ∧ j1 < hi)
    (h2 : i ≤ j2 ∧ j2 < hi) : st.PlacedFrom b n l t i hi (st'.swapCols j1 j2) := by
  have hl1 := h1.2.trans_le hhi
  have hl2 := h2.2.trans_le hhi
  have hsized := h.follows.sized
  refine ⟨h.follows.trans (hsized.swapCols_follows hl1 hl2), h.shape.swapCols hsized hhi h1 h2, ?_⟩
  rw [← h.count]
  exact card_windowSupport_swap h1 h2 fun c => (hsized.entryOf_swapCols hl1 hl2 i c).1

end Solver.PlacedFrom

/-- Behind column i a row is zero before column p and nonzero from there to the end of the window. -/
structure SplitRow (row : Row) (i hi p : Nat) : Prop where
  gt : i < p
  zero : ∀ c, i < c → c < p → row.getD c 0 = 0
  nonzero : ∀ c, p ≤ c → c < hi → row.getD c 0 ≠ 0

/-- What the two pointers of R228 have already sorted, and the nonzero in column i. -/
structure Pointers (row : Row) (i hi left right : Nat) : Prop where
  left_gt : i < left
  right_lt : right < hi
  pivot : row.getD i 0 ≠ 0
  zero : ∀ c, i < c → c < left → row.getD c 0 = 0
  nonzero : ∀ c, right < c → c < hi → row.getD c 0 ≠ 0

namespace Pointers

variable {row row' : Row} {i hi left right : Nat}

/-- Where the pointers meet the row is sorted, whatever stands there. -/
theorem split (h : Pointers row i hi left right) (hmeet : right ≤ left) : ∃ p, SplitRow row i hi p := by
  by_cases hl : row.getD left 0 = 0
  · refine ⟨left + 1, Nat.lt_succ_of_lt h.left_gt, fun c hc hlt => ?_, fun c hc => h.nonzero c (by omega)⟩
    obtain hlt | rfl := Nat.lt_succ_iff_lt_or_eq.1 hlt
    · exact h.zero c hc hlt
    · exact hl
  · refine ⟨left, h.left_gt, h.zero, fun c hc hlt => ?_⟩
    obtain rfl | hgt := Nat.eq_or_lt_of_le hc
    · exact hl
    · exact h.nonzero c (by omega) hlt

theorem left_zero (h : Pointers row i hi left right) (hl : row.getD left 0 = 0) : Pointers row i hi (left + 1) right := by
  refine ⟨Nat.lt_succ_of_lt h.left_gt, h.right_lt, h.pivot, fun c hc hlt => ?_, h.nonzero⟩
  obtain hlt | rfl := Nat.lt_succ_iff_lt_or_eq.1 hlt
  · exact h.zero c hc hlt
  · exact hl

theorem right_nonzero (h : Pointers row i hi left right) (hr : row.getD right 0 ≠ 0) :
    Pointers row i hi left (right - 1) := by
  refine ⟨h.left_gt, (Nat.sub_le _ _).trans_lt h.right_lt, h.pivot, h.zero, fun c hc hlt => ?_⟩
  by_cases hcr : c = right
  · exact hcr ▸ hr
  · exact h.nonzero c (by omega) hlt

theorem exchange (h : Pointers row i hi left right) (hlt : left < right) (hl : row.getD left 0 ≠ 0)
    (hr : row.getD right 0 = 0) (hrow : ∀ c, row'.getD c 0 = row.getD (Equiv.swap left right c) 0) :
    Pointers row' i hi (left + 1) (right - 1) := by
  have hgt := h.left_gt
  have hfix {c : Nat} (hc : c < left ∨ right < c) : row'.getD c 0 = row.getD c 0 := by
    rw [hrow, Equiv.swap_apply_of_ne_of_ne (by omega) (by omega)]
  refine ⟨Nat.lt_succ_of_lt hgt, (Nat.sub_le _ _).trans_lt h.right_lt, ?_, fun c hc hcl => ?_, fun c hc hch => ?_⟩
  · rw [hfix (.inl hgt)]
    exact h.pivot
  · obtain hcl | rfl := Nat.lt_succ_iff_lt_or_eq.1 hcl
    · rw [hfix (.inl hcl)]
      exact h.zero c hc hcl
    · rwa [hrow, Equiv.swap_apply_left]
  · by_cases hcr : c = right
    · rwa [hcr, hrow, Equiv.swap_apply_right]
    · rw [hfix (.inr (by omega))]
      exact h.nonzero c (by omega) hch

end Pointers

section
variable {b : Build} {n l t i hi : Nat} {st st' : Solver}

/-- The two-pointer exchange sorts row i. -/
theorem placeRest_spec {fuel left right : Nat} (h : st.PlacedFrom b n l t i hi st') (hhi : hi ≤ l)
    (hfuel : right ≤ left + fuel) (hp : Pointers (st'.a.getD i []) i hi left right) :
    st.PlacedFrom b n l t i hi (placeRest i fuel st' left right) ∧
      entryOf (placeRest i fuel st' left right).a i i ≠ 0 ∧
      ∃ p, SplitRow ((placeRest i fuel st' left right).a.getD i []) i hi p := by
  induction fuel generalizing st' left right with
  | zero => exact ⟨h, hp.pivot, hp.split hfuel⟩
  | succ fuel ih =>
    rw [placeRest]
    split
    · exact ⟨h, hp.pivot, hp.split ‹_›⟩
    rename_i hmeet
    split
    · exact ih h (by omega) (hp.left_zero ‹_›)
    rename_i hl
    split
    · exact ih h (by omega) (hp.right_nonzero ‹_›)
    · rename_i hr
      have hgt := hp.left_gt
      have hlt := hp.right_lt
      have hsized := h.follows.sized
      exact ih (h.swapCols hhi (by omega) (by omega)) (by omega) (hp.exchange (by omega) hl (not_not.1 hr)
        fun c => (hsized.entryOf_swapCols (by omega) (by omega) i c).1)

/-- A row with a nonzero in column i that is sorted behind it has all its other nonzeros at the right end. -/
theorem SplitRow.zero_of_lt {row : Row} {p : Nat} (h : SplitRow row i hi p) (hih : i < hi) (hpivot : row.getD i 0 ≠ 0) {c : Nat}
    (hic : i < c) (hc : c < hi - (windowSupport row i hi).card + 1) : row.getD c 0 = 0 := by
  have hsupport : windowSupport row i hi = insert i (Finset.Ico p hi) := by
    ext j
    rw [mem_windowSupport, Finset.mem_insert, Finset.mem_Ico]
    have hgt := h.gt
    constructor
    · rintro ⟨⟨hij, hj⟩, hne⟩
      by_contra hout
      exact hne (h.zero j (by omega) (by omega))
    · rintro (rfl | ⟨hpj, hj⟩)
      · exact ⟨⟨le_rfl, hih⟩, hpivot⟩
      · exact ⟨⟨by omega, hj⟩, h.nonzero j hpj hj⟩
  rw [hsupport, Finset.card_insert_of_notMem fun hmem => absurd (Finset.mem_Ico.1 hmem).1 (Nat.not_le_of_lt h.gt),
    Nat.card_Ico] at hc
  exact h.zero c hic (by omega)

/-- Column placement keeps the shape and the solutions; row i has a nonzero in column i and its other nonzeros at the right end
of the window. -/
theorem placeColumns_spec (hs : st.Sized n l t) (h : Phase1Shape n i hi st) (hih : i < hi) (hhi : hi ≤ l)
    (hcount : 1 ≤ (windowSupport (st.a.getD i []) i hi).card) :
    st.PlacedFrom b n l t i hi (placeColumns st i hi) ∧ entryOf (placeColumns st i hi).a i i ≠ 0 ∧
      ∀ c, i < c → c < hi - (windowSupport (st.a.getD i []) i hi).card + 1 →
        entryOf (placeColumns st i hi).a i c = 0 := by
  have hrest {st1 : Solver} (h1 : st.PlacedFrom b n l t i hi st1) (hpivot : entryOf st1.a i i ≠ 0) :
      st.PlacedFrom b n l t i hi (placeRest i (hi - i) st1 (i + 1) (hi - 1)) ∧
        entryOf (placeRest i (hi - i) st1 (i + 1) (hi - 1)).a i i ≠ 0 ∧
        ∀ c, i < c → c < hi - (windowSupport (st.a.getD i []) i hi).card + 1 →
          entryOf (placeRest i (hi - i) st1 (i + 1) (hi - 1)).a i c = 0 := by
    obtain ⟨hplaced, hne, p, hsplit⟩ := placeRest_spec (fuel := hi - i) h1 hhi (by omega)
      (⟨Nat.lt_succ_self i, by omega, hpivot, fun c _ _ => by omega, fun c _ _ => by omega⟩ :
        Pointers (st1.a.getD i []) i hi (i + 1) (hi - 1))
    exact ⟨hplaced, hne, fun c hic hc => hsplit.zero_of_lt hih hne hic (hplaced.count ▸ hc)⟩
  have hself : st.PlacedFrom b n l t i hi st := ⟨.refl hs, h, rfl⟩
  obtain ⟨j, hj⟩ := Finset.card_pos.1 hcount
  rw [mem_windowSupport] at hj
  rw [placeColumns]
  split
  · rename_i hnone
    have := List.find?_eq_none.1 hnone j (List.mem_range'_1.2 (by omega))
    exact absurd (not_not.1 fun hne => this (bne_iff_ne.2 hne)) hj.2
  · rename_i j1 hsome
    have hne : entryOf st.a i j1 ≠ 0 := bne_iff_ne.1 (List.find?_some hsome :)
    have hmem := List.mem_range'_1.1 (List.mem_of_find?_eq_some hsome)
    split
    · rename_i heq
      exact hrest hself (heq ▸ hne)
    · refine hrest (hself.swapCols hhi ⟨le_rfl, hih⟩ ⟨hmem.1, by omega⟩) ?_
      rwa [(hs.entryOf_swapCols (by omega) (by omega) i i).1, Equiv.swap_apply_left]

end

/-! ### Phase 1 -/

section
variable {b : Build} (hb : BuildOk b) {m : SolveDims} {n t : Nat}
include hb

/-- One step of phase 1 leads to the next shape. -/
theorem phase1_step {st : Solver} {i hi k r : Nat} (hs : st.Sized n m.l t) (h : Phase1Shape n i hi st) (hih : i < hi)
    (hhi : hi ≤ m.l) (hchoose : chooseRow m st i hi = some (k, r)) :
    st.Follows b n m.l t (eliminateBelow b (placeColumns (st.swapRows i k) i hi) i) ∧ 1 ≤ r ∧ r ≤ hi - i ∧
      Phase1Shape n (i + 1) (hi - r + 1) (eliminateBelow b (placeColumns (st.swapRows i k) i hi) i) := by
  obtain ⟨hik, hk, hr1, hr⟩ := chooseRow_spec hchoose
  rw [hs.rowsA] at hk
  have hin : i < n := hik.trans_lt hk
  have hswap := hs.swapRows_follows (b := b) hin hk
  have hrow : (st.swapRows i k).a.getD i [] = st.a.getD k [] := by
    rw [Solver.swapRows, getD_swapAt (hs.rowsA.symm ▸ hin) (hs.rowsA.symm ▸ hk), Equiv.swap_apply_left]
  rw [nzCount_eq_card (hhi.trans_eq (hs.lengthA k hk).symm), ← hrow] at hr
  obtain ⟨hplaced, hpivot, hzero⟩ := placeColumns_spec (b := b) hswap.sized (h.swapRows hs hin hik hk) hih hhi (hr ▸ hr1)
  obtain ⟨hadd, hcol⟩ := eliminateBelow_spec hb hplaced.follows.sized hin hpivot
  have hle : r ≤ hi - i := by
    rw [hr, ← Nat.card_Ico]
    exact Finset.card_filter_le _ _
  exact ⟨(hswap.trans hplaced.follows).trans hadd.follows, hr1, hle,
    hplaced.shape.eliminate hadd hcol hin hih (by omega) hpivot (hr ▸ hzero)⟩

/-- Phase 1 ends in a system with the same solutions, and in the shape that its number of steps gives. -/
theorem phase1_spec {fuel i u i' : Nat} {st st' : Solver} (hs : st.Sized n m.l t) (hle : i + u ≤ m.l)
    (h : Phase1Shape n i (m.l - u) st) (hp : phase1 b m fuel st i u = some (st', i')) :
    st.Follows b n m.l t st' ∧ i' ≤ m.l ∧ Phase1Shape n i' i' st' := by
  induction fuel generalizing st i u with
  | zero =>
    cases hp
    exact ⟨.refl hs, by omega, h.shrink (by omega)⟩
  | succ fuel ih =>
    rw [phase1] at hp
    split at hp
    · cases hp
      exact ⟨.refl hs, by omega, h.shrink (by omega)⟩
    split at hp
    · cases hp
    · rename_i k r hchoose
      obtain ⟨hfollows, hr1, hr, hshape⟩ := phase1_step hb hs h (by omega) (Nat.sub_le _ _) hchoose
      rw [show m.l - u - r + 1 = m.l - (u + r - 1) by omega] at hshape
      obtain ⟨hrest, hfinal⟩ := ih hfollows.sized (by omega) hshape hp
      exact ⟨hfollows.trans hrest, hfinal⟩

end

end Sys2Proof.Machine
end

section
/-! PROOFS. Phases 2 to 5 of the solver and its output (spec/44_pi_solver.md R232 to R236): each keeps the solutions of the system,
and at the end the first L rows are those of the identity. -/

namespace Sys2Proof.Machine
open Sys2Proof.Claims

/-- Row r is row r of the identity: beyond the L columns, a row of zeros. -/
def UnitRow (l : Nat) (st : Solver) (r : Nat) : Prop := ∀ c < l, entryOf st.a r c = if r = c then 1 else 0

/-! ### Phase 2 (R232) -/

/-- During phase 2, before column k: what phase 1 left of the first i rows and of X, and the rows of the identity below them up
to column k. -/
structure Phase2Shape (n i k : Nat) (st : Solver) : Prop extends Phase1Shape n i i st where
  unit : ∀ r, i ≤ r → r < n → UnitRow k st r

namespace Phase2Shape

variable {b : Build} {n l t i k : Nat} {st st' : Solver}

theorem start (h : Phase1Shape n i i st) : Phase2Shape n i i st := by
  refine ⟨h, fun r hr hrn c hc => ?_⟩
  rw [h.below r hr hrn c hc, if_neg (by omega)]

/-- Phase 2 changes no row above i and nothing in X. -/
theorem next (h : Phase2Shape n i k st) (hx : st'.x = st.x) (htop : ∀ r < i, ∀ c, entryOf st'.a r c = entryOf st.a r c)
    {k' : Nat} (hik : i ≤ k') (hunit : ∀ r, i ≤ r → r < n → UnitRow k' st' r) : Phase2Shape n i k' st' where
  diag r hr := htop r hr r ▸ h.diag r hr
  zero r hr c hc hne := (htop r hr c).trans (h.zero r hr c hc hne)
  below r hr hrn c hc := (hunit r hr hrn c (hc.trans_le hik)).trans (if_neg (by omega))
  diagX r hr := hx ▸ h.diagX r hr
  zeroX r hr c hrc hc := hx ▸ h.zeroX r hr c hrc hc
  sameX r hr hrn c hc hci := absurd hci (Nat.not_lt_of_le hc)
  unit := hunit

theorem swapLabels (h : Phase2Shape n i k st) (hs : st.Sized n l t) (hik : i ≤ k) {p : Nat} (hkp : k ≤ p) (hp : p < n) :
    Phase2Shape n i k { st with a := swapAt st.a k p, rowD := swapAt st.rowD k p } := by
  have hentry (r c : Nat) : entryOf (swapAt st.a k p) r c = entryOf st.a (Equiv.swap k p r) c :=
    (hs.entryOf_swapRows (hkp.trans_lt hp) hp r c).1
  have hfix {r : Nat} (hr : r < k) : Equiv.swap k p r = r := Equiv.swap_apply_of_ne_of_ne (by omega) (by omega)
  refine h.next (by rfl) (fun r hr c => ?_) hik fun r hr hrn c hc => ?_
  · rw [hentry, hfix (by omega)]
  · obtain ⟨hi', hn'⟩ := swap_mem_window (lo := i) (hi := n) (i := k) (j := p) (by omega) (by omega) ⟨hr, hrn⟩
    rw [hentry, h.unit _ hi' hn' c hc]
    refine if_congr ⟨fun heq => ?_, fun heq => heq ▸ hfix (heq ▸ hc)⟩ rfl rfl
    rw [← Equiv.swap_apply_self k p r, heq, hfix hc]

theorem normalizeRow (h : Phase2Shape n i k st) (hs : st.Sized n l t) (hik : i ≤ k) (hk : k < n) :
    Phase2Shape n i k (st.normalizeRow b k) := by
  refine h.next (by rfl) (fun r hr c => ?_) hik fun r hr hrn c hc => ?_
  · rw [hs.entryOf_normalizeRow hk, if_neg (by omega)]
  · rw [hs.entryOf_normalizeRow hk]
    split
    · rw [h.unit k hik hk c hc, if_neg (by omega), if_neg (by omega), gfDiv_zero_left]
    · exact h.unit r hr hrn c hc

/-- Once its column is cleared too, the rows are those of the identity one column further. -/
theorem clearColumn (h : Phase2Shape n i k st) (hik : i ≤ k) (hk : k < n) (hone : entryOf st.a k k = 1)
    (hadd : st.AddedFrom b n l t k (List.range' i (n - i)) st')
    (hcol : ∀ r ∈ List.range' i (n - i), r ≠ k → entryOf st'.a r k = 0) : Phase2Shape n i (k + 1) st' := by
  refine h.next hadd.x (fun r hr c => ?_) (Nat.le_succ_of_le hik) fun r hr hrn c hc => ?_
  · exact hadd.kept r c (.inr (.inl fun hmem => by rw [List.mem_range'_1] at hmem; omega))
  · obtain hlt | rfl := Nat.lt_succ_iff_lt_or_eq.1 hc
    · have hzero : entryOf st.a k c = 0 := (h.unit k hik hk c hlt).trans (if_neg (by omega))
      rw [hadd.kept r c (.inr (.inr hzero))]
      exact h.unit r hr hrn c hlt
    · by_cases hrc : r = c
      · rw [hrc, hadd.kept c c (.inl rfl), hone, if_pos rfl]
      · rw [hcol r (List.mem_range'_1.2 (by omega)) hrc, if_neg hrc]

end Phase2Shape

section
variable {b : Build} (hb : BuildOk b) {n l t i : Nat}
include hb

theorem clearColumn_spec {st : Solver} (h : st.Sized n l t) {k : Nat} (hk : k < n) (hone : entryOf st.a k k = 1) :
    st.AddedFrom b n l t k (List.range' i (n - i)) (clearColumn b i k st) ∧
      ∀ r ∈ List.range' i (n - i), r ≠ k → entryOf (clearColumn b i k st).a r k = 0 := by
  rw [clearColumn, h.rowsA]
  refine h.foldl_clearStep hb (fun r hr => ?_) hk fun st' hst' r hr => ?_
  · rw [List.mem_range'_1] at hr
    omega
  · split
    · exact .inl ⟨‹_›, rfl⟩
    · rename_i hne
      exact .inr ⟨fun heq => hne (.inl heq), _, by rw [hst', hone, gfMul_one hb], rfl⟩

/-- Phase 2 keeps the solutions, and below the first i rows it leaves the identity. -/
theorem phase2_spec {count k : Nat} {st st' : Solver} (hs : st.Sized n l t) (h : Phase2Shape n i k st) (hik : i ≤ k)
    (hp : phase2 b i (List.range' k count) st = some st') :
    st.Follows b n l t st' ∧ Phase2Shape n i (k + count) st' := by
  induction count generalizing k st with
  | zero =>
    cases hp
    exact ⟨.refl hs, h⟩
  | succ count ih =>
    rw [List.range'_succ, phase2, hs.rowsA] at hp
    split at hp
    · cases hp
    rename_i p hsome
    have hne : entryOf st.a p k ≠ 0 := bne_iff_ne.1 (List.find?_some hsome :)
    have hmem := List.mem_range'_1.1 (List.mem_of_find?_eq_some hsome)
    have hk : k < n := by omega
    have hpn : p < n := by omega
    have hswap := hs.swapLabels_follows (b := b) hk hpn hs.rowsX hs.lengthX
    have hpivot : entryOf (swapAt st.a k p) k k ≠ 0 := by
      rwa [show entryOf (swapAt st.a k p) k k = _ from (hs.entryOf_swapRows hk hpn k k).1, Equiv.swap_apply_left]
    have hdivide := hswap.sized.divide_follows hb hk hpivot
    have hone := (hswap.sized.entryOf_normalizeRow (b := b) hk k k).trans ((if_pos rfl).trans (gfDiv_self hb hpivot))
    obtain ⟨hadd, hcol⟩ := clearColumn_spec hb (i := i) hdivide.sized hk hone
    have hshape := ((h.swapLabels hs hik hmem.1 hpn).normalizeRow (b := b) hswap.sized hik hk).clearColumn hik hk hone hadd hcol
    obtain ⟨hrest, hfinal⟩ := ih hadd.follows.sized hshape (Nat.le_succ_of_le hik) hp
    rw [show k + (count + 1) = k + 1 + count by omega]
    exact ⟨((hswap.trans hdivide).trans hadd.follows).trans hrest, hfinal⟩

end

/-! ### Linear combinations of rows (R233) -/

section
variable {b : Build} {n : Nat}

theorem length_combine {coeffs : List Byte} {rows : List (List Byte)} (h : ∀ row ∈ rows, row.length = n) :
    (combine b n coeffs rows).length = n := by
  induction coeffs generalizing rows with
  | nil => exact length_zeroBytes n
  | cons c cs ih =>
    cases rows with
    | nil => exact length_zeroBytes n
    | cons row rows =>
      obtain ⟨hrow, hrows⟩ := List.forall_mem_cons.1 h
      exact (length_axpyBytes ((ih hrows).trans hrow.symm)).trans (ih hrows)

section
variable {α : Type} {js : List α} (f : α → Byte) {g : α → List Byte} (h : ∀ j ∈ js, (g j).length = n)
include h

theorem length_combine_map : (combine b n (js.map f) (js.map g)).length = n :=
  length_combine fun _ hrow => by obtain ⟨j, hj, rfl⟩ := List.mem_map.1 hrow; exact h j hj

theorem getD_combine_map (k : Nat) :
    (combine b n (js.map f) (js.map g)).getD k 0 = xorAll (js.map fun j => gfMul b (f j) ((g j).getD k 0)) := by
  induction js with
  | nil => exact getD_zeroBytes n k
  | cons j js ih =>
    obtain ⟨hj, hjs⟩ := List.forall_mem_cons.1 h
    rw [List.map_cons, List.map_cons, combine, getD_axpyBytes ((length_combine_map f hjs).trans hj.symm), ih hjs, BitVec.xor_comm]
    rfl

theorem rowDot_combine_map (hb : BuildOk b) (y : Nat → Byte) :
    rowDot b (combine b n (js.map f) (js.map g)) y = xorAll (js.map fun j => gfMul b (f j) (rowDot b (g j) y)) := by
  induction js with
  | nil => exact xorAll_map_zero fun j _ => by rw [List.map_nil, combine, getD_zeroBytes, gfMul_zero_left]
  | cons j js ih =>
    obtain ⟨hj, hjs⟩ := List.forall_mem_cons.1 h
    rw [List.map_cons, List.map_cons, combine, rowDot_axpyBytes hb ((length_combine_map f hjs).trans hj.symm), ih hjs,
      BitVec.xor_comm]
    rfl

end

theorem take_eq_map_range {α : Type} {row : List α} {i : Nat} (h : i ≤ row.length) (d : α) :
    row.take i = (List.range i).map fun j => row.getD j d := by
  refine List.ext_getElem (by simp [h]) fun j hj _ => ?_
  rw [List.length_take] at hj
  rw [List.getElem_take, List.getElem_map, List.getElem_range, List.getD_eq_getElem _ _ (by omega)]

end

/-! ### Phase 3 (R233) -/

/-- The first i rows of the product with X's block of phase 3, in A and in D. -/
def phase3Row (b : Build) (l i : Nat) (st : Solver) (r : Nat) : Row :=
  combine b l ((List.range i).map (entryOf st.x r)) ((List.range i).map fun j => st.a.getD j [])

def phase3Rhs (b : Build) (t i : Nat) (st : Solver) (r : Nat) : Symbol :=
  combine b t ((List.range i).map (entryOf st.x r)) ((List.range i).map st.rhs)

/-- What phase 3 makes of the rows. -/
structure Phase3Rows (b : Build) (n l t i : Nat) (st st' : Solver) : Prop where
  sized : st'.Sized n l t
  cols : st'.permC = st.permC
  x : st'.x = st.x
  rest : ∀ r, i ≤ r → r < n → st'.a.getD r [] = st.a.getD r [] ∧ st'.rhs r = st.rhs r

section
variable {b : Build} {n t i : Nat} {m : SolveDims} {st : Solver}

theorem phase3_rows (hs : st.Sized n m.l m.t) (hil : i ≤ m.l) (hin : i ≤ n) :
    Phase3Rows b n m.l m.t i st (phase3 b m i st) ∧
      ∀ r < i, (phase3 b m i st).a.getD r [] = phase3Row b m.l i st r ∧
        (phase3 b m i st).rhs r = phase3Rhs b m.t i st r := by
  suffices hloop : Phase3Rows b n m.l m.t i st (phase3 b m i st) ∧ ∀ r ∈ List.range i, r < i →
      (phase3 b m i st).a.getD r [] = phase3Row b m.l i st r ∧ (phase3 b m i st).rhs r = phase3Rhs b m.t i st r from
    ⟨hloop.1, fun r hr => hloop.2 r (List.mem_range.2 hr) hr⟩
  refine foldl_establishes (M := Phase3Rows b n m.l m.t i st)
    (P := fun r st' => r < i → st'.a.getD r [] = phase3Row b m.l i st r ∧ st'.rhs r = phase3Rhs b m.t i st r)
    (fun cur hcur k hk => ?_) ⟨hs, rfl, rfl, fun _ _ _ => ⟨rfl, rfl⟩⟩
  have hki := List.mem_range.1 hk
  have hkn : k < n := hki.trans_le hin
  have hcoeffs : (st.x.getD k []).take i = (List.range i).map (entryOf st.x k) := by
    rw [take_eq_map_range (hil.trans_eq (hs.lengthX k hkn).symm) 0]
    rfl
  have hstep : (cur.setRow k (combine b m.l ((st.x.getD k []).take i) ((List.range i).map fun k => st.a.getD k []))).setRhs k
      (combine b m.t ((st.x.getD k []).take i) ((List.range i).map st.rhs)) =
      cur.withRow k (phase3Row b m.l i st k) (phase3Rhs b m.t i st k) := by
    rw [hcoeffs]
    rfl
  have hlenA : (phase3Row b m.l i st k).length = m.l :=
    length_combine_map _ fun j hj => hs.lengthA j ((List.mem_range.1 hj).trans_le hin)
  have hlenD : (phase3Rhs b m.t i st k).length = m.t :=
    length_combine_map _ fun j hj => hs.length_rhs ((List.mem_range.1 hj).trans_le hin)
  have hrow := hcur.sized.getD_withRow (v := phase3Row b m.l i st k) (w := phase3Rhs b m.t i st k) hkn
  have hrhs {q : Nat} (hq : q < n) := hcur.sized.rhs_withRow (v := phase3Row b m.l i st k) (w := phase3Rhs b m.t i st k) hkn hq
  dsimp only
  rw [hstep]
  refine ⟨⟨hcur.sized.withRow hkn hlenA hlenD, hcur.cols, hcur.x, fun r hr hrn => ?_⟩, fun _ => ?_, fun r hr hri => ?_⟩
  · rw [hrow, hrhs hrn, if_neg (by omega), if_neg (by omega)]
    exact hcur.rest r hr hrn
  · rw [hrow, hrhs hkn, if_pos rfl, if_pos rfl]
    exact ⟨rfl, rfl⟩
  · rw [hrow, hrhs (hri.trans_le hin)]
    split
    · rename_i heq
      exact heq ▸ ⟨rfl, rfl⟩
    · exact hr hri

/-- The first k of the first i rows are those of the identity, as are the rows from i on; the rows between are lower triangular up
to column w. Phase 3 leaves k = 0 and w = i, phase 4 w = L, and phase 5 k = i. -/
structure LowerShape (n l i k w : Nat) (st : Solver) : Prop where
  unit : ∀ r < n, r < k ∨ i ≤ r → UnitRow l st r
  diag : ∀ r, k ≤ r → r < i → entryOf st.a r r ≠ 0
  upper : ∀ r, k ≤ r → r < i → ∀ c, r < c → c < w → entryOf st.a r c = 0

/-- The product of X's lower triangle and A's diagonal, which phase 3 leaves in the first i columns. -/
theorem getD_phase3Row (hs : st.Sized n m.l t) (h : Phase1Shape n i i st) (hin : i ≤ n) (r : Nat) {c : Nat} (hc : c < i) :
    (phase3Row b m.l i st r).getD c 0 = gfMul b (entryOf st.x r c) (entryOf st.a c c) := by
  rw [phase3Row, getD_combine_map _ fun j hj => hs.lengthA j ((List.mem_range.1 hj).trans_le hin)]
  refine xorAll_range_single (f := fun j => gfMul b (entryOf st.x r j) (entryOf st.a j c)) hc fun j hj hne => ?_
  rw [h.zero j hj c hc hne.symm, gfMul_zero_right]

variable (hb : BuildOk b)
include hb

/-- The product with X's block is solved exactly when the rows are, since the block is triangular with a nonzero diagonal. -/
theorem phase3_follows (hs : st.Sized n m.l m.t) (h : Phase1Shape n i i st) (hil : i ≤ m.l) (hin : i ≤ n) :
    st.Follows b n m.l m.t (phase3 b m i st) := by
  obtain ⟨hrows, hnew⟩ := phase3_rows (b := b) hs hil hin
  refine ⟨hrows.sized, fun y k => ?_⟩
  have hrest {r : Nat} (hr : i ≤ r) (hrn : r < n) : (phase3 b m i st).residual b y k r = st.residual b y k r := by
    obtain ⟨hA, hD⟩ := hrows.rest r hr hrn
    rw [Solver.residual, hA, hD, hrows.cols]
    rfl
  have hsum {r : Nat} (hr : r < i) : (phase3 b m i st).residual b y k r =
      xorAll ((List.range i).map fun j => gfMul b (entryOf st.x r j) (st.residual b y k j)) := by
    obtain ⟨hA, hD⟩ := hnew r hr
    rw [Solver.residual, hA, hD, hrows.cols, phase3Row, phase3Rhs,
      rowDot_combine_map _ (fun j hj => hs.lengthA j ((List.mem_range.1 hj).trans_le hin)) hb,
      getD_combine_map _ fun j hj => hs.length_rhs ((List.mem_range.1 hj).trans_le hin), ← xorAll_map_xor]
    simp only [← gfMul_xor hb]
    rfl
  constructor
  · intro hsolves r hrn
    induction r using Nat.strongRecOn with
    | ind r ih =>
      by_cases hr : r < i
      · have hzero := hsolves r hrn
        rw [hsum hr, xorAll_range_single hr fun j hj hne => ?_, gfMul_eq_zero hb] at hzero
        · exact hzero.resolve_left (h.diagX r hr)
        · obtain hlt | hgt := Nat.lt_or_gt_of_ne hne
          · rw [ih j hlt (hlt.trans hrn), gfMul_zero_right]
          · rw [h.zeroX r hr j hgt hj, gfMul_zero_left]
      · exact (hrest (Nat.le_of_not_lt hr) hrn).symm.trans (hsolves r hrn)
  · intro hsolves r hrn
    by_cases hr : r < i
    · rw [hsum hr]
      exact xorAll_map_zero fun j hj => by rw [hsolves j ((List.mem_range.1 hj).trans_le hin), gfMul_zero_right]
    · exact (hrest (Nat.le_of_not_lt hr) hrn).trans (hsolves r hrn)

theorem phase3_shape (hs : st.Sized n m.l m.t) (h : Phase2Shape n i m.l st) (hil : i ≤ m.l) (hin : i ≤ n) :
    LowerShape n m.l i 0 i (phase3 b m i st) := by
  obtain ⟨hrows, hnew⟩ := phase3_rows (b := b) hs hil hin
  have hentry {r c : Nat} (hr : r < i) (hc : c < i) :
      entryOf (phase3 b m i st).a r c = gfMul b (entryOf st.x r c) (entryOf st.a c c) := by
    rw [entryOf, (hnew r hr).1, getD_phase3Row hs h.toPhase1Shape hin r hc]
  refine ⟨fun r hrn hr c hc => ?_, fun r _ hr => ?_, fun r _ hr c hrc hc => ?_⟩
  · have hri := hr.resolve_left (Nat.not_lt_zero r)
    rw [entryOf, (hrows.rest r hri hrn).1]
    exact h.unit r hri hrn c hc
  · rw [hentry hr hr, Ne, gfMul_eq_zero hb, not_or]
    exact ⟨h.diagX r hr, h.diag r hr⟩
  · rw [hentry hr hc, h.zeroX r hr c hrc hc, gfMul_zero_left]

end

/-! ### Phases 4 and 5 (R234, R235) -/

section
variable {b : Build} {n l t : Nat} {st : Solver}

theorem entryOf_foldEntry (hs : st.Sized n l t) {k j : Nat} (hk : k < n) (hj : j < l) (r c : Nat) :
    entryOf (foldEntry b k st j).a r c = if r = k ∧ c = j then 0 else entryOf st.a r c := by
  rw [foldEntry]
  split
  · rename_i hzero
    split
    · rename_i heq
      rw [heq.1, heq.2, hzero]
    · rfl
  · refine (congrArg (·.getD c 0) (getD_set (hs.rowsA.symm ▸ hk) ((st.a.getD k []).set j 0) [] r)).trans ?_
    by_cases hr : r = k
    · rw [if_pos hr, getD_set (by rwa [hs.lengthA k hk]), hr]
      simp only [true_and]
      rfl
    · rw [if_neg hr, if_neg fun heq => hr heq.1]
      rfl

variable (hb : BuildOk b)
include hb

/-- Folding an entry into D adds a multiple of a row of the identity. -/
theorem foldEntry_follows (hs : st.Sized n l t) {k j : Nat} (hk : k < n) (hj : j < n) (hjl : j < l) (hne : j ≠ k)
    (hunit : UnitRow l st j) : st.Follows b n l t (foldEntry b k st j) := by
  rw [foldEntry]
  split
  · exact .refl hs
  have hlen : (st.a.getD k []).length = (st.a.getD j []).length := by rw [hs.lengthA k hk, hs.lengthA j hj]
  have hrow : (st.a.getD k []).set j 0 = axpyBytes b (st.a.getD k []) (entryOf st.a k j) (st.a.getD j []) := by
    refine eq_of_getD (by rw [List.length_set, length_axpyBytes hlen]) fun c hc => ?_
    rw [List.length_set, hs.lengthA k hk] at hc
    rw [getD_set (by rwa [hs.lengthA k hk]), getD_axpyBytes hlen, show (st.a.getD j []).getD c 0 = _ from hunit c hc]
    by_cases hcj : c = j
    · rw [if_pos hcj, if_pos hcj.symm, gfMul_one hb, hcj]
      exact BitVec.xor_self.symm
    · rw [if_neg hcj, if_neg (Ne.symm hcj), gfMul_zero_right]
      exact BitVec.xor_zero.symm
  rw [hrow]
  exact hs.addScaled_follows hb hk hj hne _

/-- Folding a row's entries in the columns `js` into D, by rows of the identity. -/
theorem foldl_foldEntry_spec (hs : st.Sized n l t) {k : Nat} (hk : k < n) {js : List Nat}
    (hjs : ∀ j ∈ js, j < n ∧ j < l ∧ j ≠ k ∧ UnitRow l st j) :
    st.Follows b n l t (js.foldl (foldEntry b k) st) ∧
      ∀ r c, entryOf (js.foldl (foldEntry b k) st).a r c = if r = k ∧ c ∈ js then 0 else entryOf st.a r c := by
  induction js generalizing st with
  | nil => exact ⟨.refl hs, fun r c => (if_neg fun h => List.not_mem_nil h.2).symm⟩
  | cons j js ih =>
    obtain ⟨⟨hj, hjl, hne, hunit⟩, hrest⟩ := List.forall_mem_cons.1 hjs
    have hentry := entryOf_foldEntry (b := b) hs hk hjl
    have hstep := foldEntry_follows hb hs hk hj hjl hne hunit
    obtain ⟨hfollows, hfinal⟩ := ih hstep.sized fun q hq => by
      obtain ⟨hqn, hql, hqk, hqunit⟩ := hrest q hq
      exact ⟨hqn, hql, hqk, fun c hc => by rw [hentry, if_neg fun h => hqk h.1, hqunit c hc]⟩
    refine ⟨hstep.trans hfollows, fun r c => ?_⟩
    rw [List.foldl_cons, hfinal, hentry]
    by_cases hr : r = k <;> by_cases hc : c ∈ js <;> simp [hr, hc]

/-- Folding the columns `js` of the rows `ks` into D, by rows of the identity. -/
theorem foldl_foldRows_spec (hs : st.Sized n l t) {ks js : List Nat} (hks : ∀ k ∈ ks, k < n)
    (hjs : ∀ j ∈ js, j < n ∧ j < l ∧ j ∉ ks ∧ UnitRow l st j) :
    st.Follows b n l t (ks.foldl (fun st k => js.foldl (foldEntry b k) st) st) ∧
      ∀ r c, entryOf (ks.foldl (fun st k => js.foldl (foldEntry b k) st) st).a r c =
        if r ∈ ks ∧ c ∈ js then 0 else entryOf st.a r c := by
  induction ks generalizing st with
  | nil => exact ⟨.refl hs, fun r c => (if_neg fun h => List.not_mem_nil h.1).symm⟩
  | cons k ks ih =>
    obtain ⟨hk, hrest⟩ := List.forall_mem_cons.1 hks
    obtain ⟨hrow, hentry⟩ := foldl_foldEntry_spec hb hs hk fun j hj => by
      obtain ⟨hjn, hjl, hjk, hunit⟩ := hjs j hj
      exact ⟨hjn, hjl, List.ne_of_not_mem_cons hjk, hunit⟩
    obtain ⟨hfollows, hfinal⟩ := ih hrow.sized hrest fun j hj => by
      obtain ⟨hjn, hjl, hjk, hunit⟩ := hjs j hj
      refine ⟨hjn, hjl, List.not_mem_of_not_mem_cons hjk, fun c hc => ?_⟩
      rw [hentry, if_neg fun h => List.ne_of_not_mem_cons hjk h.1, hunit c hc]
    refine ⟨hrow.trans hfollows, fun r c => ?_⟩
    rw [List.foldl_cons, hfinal, hentry]
    by_cases hr : r = k <;> by_cases hc : c ∈ js <;> simp [hr, hc]

/-- Phase 4 folds the columns [i, L) of the first i rows into D. -/
theorem phase4_spec {m : SolveDims} (hs : st.Sized n m.l t) {i : Nat} (hln : m.l ≤ n) (hil : i ≤ m.l)
    (h : LowerShape n m.l i 0 i st) :
    st.Follows b n m.l t (phase4 b m i st) ∧ LowerShape n m.l i 0 m.l (phase4 b m i st) := by
  obtain ⟨hfollows, hentry⟩ := foldl_foldRows_spec hb hs (ks := List.range i) (js := List.range' i (m.l - i))
    (fun k hk => (List.mem_range.1 hk).trans_le (hil.trans hln)) fun j hj => by
      rw [List.mem_range'_1] at hj
      exact ⟨by omega, by omega, fun hmem => by have := List.mem_range.1 hmem; omega,
        h.unit j (by omega) (.inr hj.1)⟩
  simp only [List.mem_range, List.mem_range'_1] at hentry
  refine ⟨hfollows, fun r hrn hr c hc => ?_, fun r hr hri => ?_, fun r hr hri c hrc hc => ?_⟩
  · rw [phase4, hentry, if_neg (by omega)]
    exact h.unit r hrn hr c hc
  · rw [phase4, hentry, if_neg (by omega)]
    exact h.diag r hr hri
  · rw [phase4, hentry]
    split
    · rfl
    · exact h.upper r hr hri c hrc (by omega)

/-- A row whose only nonzero is in column k, after the division by that one. -/
theorem set_one_eq_divBytes {row : Row} {k : Nat} (hk : k < row.length) (hdiag : row.getD k 0 ≠ 0)
    (hzero : ∀ c < row.length, c ≠ k → row.getD c 0 = 0) : row.set k 1 = divBytes b row (row.getD k 0) := by
  refine eq_of_getD (by rw [List.length_set, length_divBytes]) fun c hc => ?_
  rw [List.length_set] at hc
  rw [getD_set hk, getD_divBytes]
  split
  · rename_i heq
    rw [heq, gfDiv_self hb hdiag]
  · rename_i hne
    rw [hzero c hc hne, gfDiv_zero_left]

/-- One row of phase 5: with the rows above it already those of the identity, this one becomes so too. -/
theorem backRow_spec (hs : st.Sized n l t) {i k : Nat} (hln : l ≤ n) (hil : i ≤ l) (hki : k < i)
    (h : LowerShape n l i k l st) :
    st.Follows b n l t (backRow b st k) ∧ LowerShape n l i (k + 1) l (backRow b st k) := by
  obtain ⟨hfold, hentry⟩ := foldl_foldEntry_spec hb hs (k := k) (by omega) (js := List.range k)
    fun j hj => by
      have := List.mem_range.1 hj
      exact ⟨by omega, by omega, by omega, h.unit j (by omega) (.inl this)⟩
  rw [backRow]
  generalize (List.range k).foldl (foldEntry b k) st = st1 at hfold hentry
  have hkn : k < n := by omega
  have hdiag : entryOf st1.a k k ≠ 0 := by
    rw [hentry, if_neg fun hmem => absurd (List.mem_range.1 hmem.2) (Nat.lt_irrefl k)]
    exact h.diag k le_rfl hki
  have hzero {c : Nat} (hc : c < l) (hne : c ≠ k) : entryOf st1.a k c = 0 := by
    rw [hentry]
    split
    · rfl
    · rename_i hmem
      rw [List.mem_range] at hmem
      exact h.upper k le_rfl hki c (by omega) hc
  have hlen := hfold.sized.lengthA k hkn
  have hrow : (st1.a.getD k []).set k 1 = divBytes b (st1.a.getD k []) (entryOf st1.a k k) :=
    set_one_eq_divBytes hb (by omega) hdiag fun c hc => hzero (hlen ▸ hc)
  rw [hrow]
  have hkeep {r : Nat} (hr : r ≠ k) (c : Nat) : entryOf (st1.normalizeRow b k).a r c = entryOf st.a r c := by
    rw [hfold.sized.entryOf_normalizeRow hkn, if_neg hr, hentry, if_neg fun hmem => hr hmem.1]
  refine ⟨hfold.trans (hfold.sized.divide_follows hb hkn hdiag), fun r hrn hr c hc => ?_, fun r hr hri => ?_,
    fun r hr hri c hrc hc => ?_⟩
  · by_cases hrk : r = k
    · subst hrk
      refine (hfold.sized.entryOf_normalizeRow hkn r c).trans ?_
      rw [if_pos rfl]
      split
      · rename_i heq
        exact heq ▸ gfDiv_self hb hdiag
      · rename_i hne
        rw [hzero hc (Ne.symm hne), gfDiv_zero_left]
    · exact (hkeep hrk c).trans (h.unit r hrn (by omega) c hc)
  · exact fun hdiag => h.diag r (by omega) hri ((hkeep (by omega) r).symm.trans hdiag)
  · exact (hkeep (by omega) c).trans (h.upper r (by omega) hri c hrc hc)

/-- Phase 5 makes the first L rows those of the identity. -/
theorem phase5_spec (hs : st.Sized n l t) {i : Nat} (hln : l ≤ n) (hil : i ≤ l) (h : LowerShape n l i 0 l st) :
    st.Follows b n l t (phase5 b i st) ∧ ∀ r < n, UnitRow l (phase5 b i st) r := by
  have hloop {k : Nat} (hk : k ≤ i) :
      st.Follows b n l t ((List.range k).foldl (backRow b) st) ∧
        LowerShape n l i k l ((List.range k).foldl (backRow b) st) := by
    induction k with
    | zero => exact ⟨.refl hs, h⟩
    | succ k ih =>
      obtain ⟨hfollows, hshape⟩ := ih (Nat.le_of_succ_le hk)
      obtain ⟨hstep, hnext⟩ := backRow_spec hb hfollows.sized hln hil hk hshape
      rw [List.range_succ, List.foldl_append]
      exact ⟨hfollows.trans hstep, hnext⟩
  obtain ⟨hfollows, hshape⟩ := hloop le_rfl
  exact ⟨hfollows, fun r hrn => hshape.unit r hrn (Nat.lt_or_ge r i)⟩

end

/-! ### The solver -/

section
variable {b : Build} {m : SolveDims} {a : List Row} {d : List Symbol}

theorem init_sized (h : Shaped m a d) : (Solver.init m.l a d).Sized a.length m.l m.t := by
  obtain ⟨hrows, -, -, hA, hD⟩ := h
  have hlen : ∀ r < a.length, (a.getD r []).length = m.l := fun r hr => by
    rw [List.getD_eq_getElem _ _ hr]
    exact hA _ (List.getElem_mem hr)
  refine ⟨rfl, rfl, hrows.symm, .refl _, .refl _, hlen, hlen, fun r hr => ?_⟩
  rw [Solver.init, List.getD_eq_getElem _ _ (hrows ▸ hr)]
  exact hD _ (List.getElem_mem _)

/-- The first state stands for the system itself. -/
theorem init_solves (h : Shaped m a d) (y : Nat → Byte) (k : Nat) :
    (Solver.init m.l a d).Solves b a.length y k ↔ ∀ r < a.length, rowDot b (a.getD r []) y = (d.getD r []).getD k 0 := by
  have hs := init_sized h
  refine forall₂_congr fun r hr => ?_
  have hdot : rowDot b (a.getD r []) (fun j => y ((List.range m.l).getD j 0)) = rowDot b (a.getD r []) y :=
    rowDot_congr fun j hj => by
      rw [show (a.getD r []).length = m.l from hs.lengthA r hr] at hj
      rw [List.getD_eq_getElem _ _ (by rwa [List.length_range]), List.getElem_range]
  have hlabel : (Solver.init m.l a d).label r = r := by
    rw [Solver.label, Solver.init, List.getD_eq_getElem _ _ (by rwa [List.length_range]), List.getElem_range]
  have hres : (Solver.init m.l a d).residual b y k r = rowDot b (a.getD r []) y ^^^ (d.getD r []).getD k 0 := by
    rw [Solver.residual, Solver.rhs, hlabel, ← hdot]
    rfl
  rw [hres]
  exact BitVec.xor_eq_zero_iff

variable (hb : BuildOk b)
include hb

/-- A state whose rows are those of the identity says what the columns' symbols are. -/
theorem solves_of_unitRow {n l t : Nat} {st : Solver} (hs : st.Sized n l t) (hln : l ≤ n) (hunit : ∀ r < n, UnitRow l st r)
    (y : Nat → Byte) (k : Nat) {r : Nat} (hr : r < l) :
    st.residual b y k r = 0 ↔ (st.rhs r).getD k 0 = y (st.permC.getD r 0) := by
  have hrow := hs.lengthA r (hr.trans_le hln)
  have hdot : rowDot b (st.a.getD r []) (fun j => y (st.permC.getD j 0)) = y (st.permC.getD r 0) :=
    rowDot_unit hb (c := r) (hrow.symm ▸ hr)
      (fun j hj => (hunit r (hr.trans_le hln) j (hrow ▸ hj)).trans (if_congr eq_comm rfl rfl)) _
  rw [Solver.residual, hdot]
  exact BitVec.xor_eq_zero_iff.trans eq_comm

/-- A successful solve ends in a state with the solutions of the system whose rows are those of the identity, and answers its
output. -/
theorem solve_final (h : Shaped m a d) {out : List (Nat × Symbol)} (hout : solve b m a d = .ok out) :
    ∃ st, (Solver.init m.l a d).Follows b a.length m.l m.t st ∧ (∀ r < a.length, UnitRow m.l st r) ∧
      out = solverOutput m st := by
  obtain ⟨-, hln, hp, -, -⟩ := id h
  unfold solve at hout
  split at hout
  · cases hout
  rename_i st1 i hphase1
  obtain ⟨h1, hil, hshape1⟩ := phase1_spec hb (init_sized h) (by omega) (.init a.length m.l (m.l - m.p) a d) hphase1
  split at hout
  · cases hout
  rename_i st2 hphase2
  obtain ⟨h2, hshape2⟩ := phase2_spec hb h1.sized (.start hshape1) le_rfl hphase2
  rw [Nat.add_sub_of_le hil] at hshape2
  have hin := hil.trans hln
  have h3 := phase3_follows hb h2.sized hshape2.toPhase1Shape hil hin
  obtain ⟨h4, hshape4⟩ := phase4_spec hb h3.sized hln hil (phase3_shape hb h2.sized hshape2 hil hin)
  obtain ⟨h5, hunit⟩ := phase5_spec hb h4.sized hln hil hshape4
  exact ⟨_, (((h1.trans h2).trans h3).trans h4).trans h5, hunit, (Except.ok.inj hout).symm⟩

/-- What a successful solve answers: every row of SYM_C once, with T bytes; a solution of the system has these symbols, and of a
square system they are a solution. A solution is given byte k by byte k, y c for the symbol of column c. -/
theorem solve_spec (h : Shaped m a d) {out : List (Nat × Symbol)} (hout : solve b m a d = .ok out) :
    (out.map Prod.fst).Perm (List.range m.l) ∧ (∀ q ∈ out, q.2.length = m.t) ∧ ∀ (y : Nat → Byte) (k : Nat),
      ((∀ r < a.length, rowDot b (a.getD r []) y = (d.getD r []).getD k 0) → ∀ q ∈ out, q.2.getD k 0 = y q.1) ∧
      (a.length = m.l → (∀ q ∈ out, q.2.getD k 0 = y q.1) →
        ∀ r < a.length, rowDot b (a.getD r []) y = (d.getD r []).getD k 0) := by
  obtain ⟨-, hln, -, -, -⟩ := id h
  obtain ⟨st, hall, hunit, rfl⟩ := solve_final hb h hout
  have hs := hall.sized
  have hmem {P : Nat × Symbol → Prop} :
      (∀ q ∈ solverOutput m st, P q) ↔ ∀ r < m.l, P (st.permC.getD r 0, st.rhs r) := by
    simp [solverOutput]
  have hcols : (solverOutput m st).map Prod.fst = st.permC := by
    have hwhole := take_eq_map_range (le_refl st.permC.length) 0
    rw [List.take_length, hs.length_permC] at hwhole
    rw [hwhole, solverOutput, List.map_map]
    rfl
  have hsymbol (y : Nat → Byte) (k : Nat) {r : Nat} (hr : r < m.l) := solves_of_unitRow hb hs hln hunit y k hr
  refine ⟨hcols ▸ hs.cols, hmem.2 fun r hr => hs.length_rhs (hr.trans_le hln), fun y k => ⟨fun hsol => ?_,
    fun hsquare hsol => ?_⟩⟩
  · have hfinal := (hall.solves y k).2 ((init_solves h y k).2 hsol)
    exact hmem.2 fun r hr => (hsymbol y k hr).1 (hfinal r (hr.trans_le hln))
  · refine (init_solves h y k).1 ((hall.solves y k).1 fun r hr => ?_)
    exact (hsymbol y k (hsquare ▸ hr)).2 (hmem.1 hsol r (hsquare ▸ hr))

end

end Sys2Proof.Machine
end

section
/-! PROOFS. The code is systematic (spec/43_lt_encoder.md R212; 45_block_codec.md R270, R276): what a successful BLK_ENCODE leaves
in SYM_C solves the encoding system, whose last K' rows are the patterns of the source and padding symbols. -/

namespace Sys2Proof.Machine
open Sys2Proof.Claims

/-! ### Rows of a symbol bank (20_memory.md R61) -/

/-- Different rows stored in a symbol bank read back, since none reaches over the next one. -/
theorem State.read_writeSymRows_row {s : State} {r : Region} {l : List (Nat × Symbol)} (hrows : (l.map Prod.fst).Nodup)
    (hlen : ∀ q ∈ l, q.2.length ≤ s.build.tMax) {q : Nat × Symbol} (hq : q ∈ l) {k : Nat} (hk : k < q.2.length) :
    (s.writeSymRows r l).mem.read (symRow s.build r q.1 + k) = some (q.2.getD k 0) := by
  induction l generalizing s with
  | nil => exact absurd hq List.not_mem_nil
  | cons p l ih =>
    obtain ⟨hp, hrest⟩ := List.nodup_cons.1 hrows
    obtain ⟨hplen, hlrest⟩ := List.forall_mem_cons.1 hlen
    obtain rfl | hq := List.mem_cons.1 hq
    · rw [State.writeSymRows, State.read_writeSymRows fun w hw => ?_, State.writeSymRow_mem, Memory.read_writeBytes,
        if_pos (by omega), Nat.add_sub_cancel_left, List.getElem?_eq_getElem hk, List.getD_eq_getElem _ _ hk]
      have hne : w.1 ≠ q.1 := fun heq => hp (heq ▸ List.mem_map_of_mem hw)
      have hwlen := hlrest w hw
      simp only [State.writeSymRow_build, symRow]
      obtain hlt | hgt := Nat.lt_or_gt_of_ne hne
      · have := row_add_le hlt hwlen
        omega
      · have := row_add_le hgt hplen
        omega
    · exact ih (s := s.writeSymRow r p.1 p.2) hrest hlrest hq

/-- The symbols that a read of rows answers. -/
theorem State.readSymRows_eq_map {s : State} {r : Region} {rows : List Nat} {vs : List Symbol}
    (h : s.readSymRows r rows = some vs) :
    vs = rows.map fun row => symbolAt s.mem (symRow s.build r row) (tOf s) := by
  induction rows generalizing vs with
  | nil => exact (Option.some.inj h).symm
  | cons row rows ih =>
    rw [State.readSymRows] at h
    split at h
    · cases h
    · rename_i v hv
      obtain ⟨ws, hws, rfl⟩ := Option.map_eq_some_iff.1 h
      have hsymbol := hv.symm.trans (State.readSymbol_of_valued (Memory.valued_of_readBytes hv))
      rw [List.map_cons, ← ih hws, Option.some.inj hsymbol]

/-! ### The encoding system (R270) -/

section
variable {c : BlockParams} {src : List Symbol}

theorem length_encodeRhs (hsrc : src.length = c.k.toNat) (hk : c.k.toNat ≤ c.kp.toNat) :
    (encodeRhs c src).length = c.s.toNat + c.h.toNat + c.kp.toNat := by
  simp only [encodeRhs, List.length_append, List.length_replicate, hsrc]
  omega

theorem length_of_mem_encodeRhs (hsrc : ∀ v ∈ src, v.length = c.t.toNat) {v : Symbol} (hv : v ∈ encodeRhs c src) :
    v.length = c.t.toNat := by
  simp only [encodeRhs, List.mem_append, List.mem_replicate] at hv
  obtain (⟨-, rfl⟩ | hv) | ⟨-, rfl⟩ := hv
  · exact length_zeroBytes _
  · exact hsrc v hv
  · exact length_zeroBytes _

/-- Behind the S + H zero rows stand the source symbols, and behind them zero rows up to K'. -/
theorem getD_encodeRhs (hsrc : src.length = c.k.toNat) {x : Nat} (hx : x < c.kp.toNat) :
    (encodeRhs c src).getD (c.s.toNat + c.h.toNat + x) [] =
      if x < c.k.toNat then src.getD x [] else zeroBytes c.t.toNat := by
  rw [encodeRhs, List.append_assoc, List.getD_append_right _ _ _ _ (by simp), List.length_replicate, Nat.add_sub_cancel_left]
  split
  · rw [List.getD_append _ _ _ _ (by omega)]
  · rw [List.getD_append_right _ _ _ _ (by omega), List.getD_replicate _ (by omega)]

end

section
variable {s t : State}

theorem encodingSystem_shaped (hs : MachineOk s) (hv : s.status.cfgValid = true) {src : List Symbol}
    (hsrc : s.readSymRows .symSrc (List.range s.cfg.k.toNat) = some src) :
    Shaped s.solveDims (constraintMatrix s.build s.cfg) (encodeRhs s.cfg src) := by
  obtain ⟨hl, hwp, -, -, -, -, -, -, -, -, -, -, -, -, hk, -⟩ := blockParameterLaws s hs hv
  obtain ⟨hcount, hlen⟩ := State.readSymRows_some hsrc
  rw [List.length_range] at hcount
  have hrows := length_constraintMatrix s.build s.cfg
  refine ⟨hrows.trans (length_encodeRhs hcount hk).symm, ?_, ?_, fun _ => length_of_mem_constraintMatrix,
    fun _ => length_of_mem_encodeRhs hlen⟩
  · show s.cfg.l.toNat ≤ _
    omega
  · show s.cfg.p.toNat ≤ s.cfg.l.toNat
    omega

/-- A successful BLK_ENCODE solved the encoding system of the source symbols and stored what the solver answered. -/
theorem blkEncode_solved (hv : s.status.cfgValid = true) (h : exec .blkEncode s = .next t) (herr : t.status.err = false) :
    ∃ src out, s.readSymRows .symSrc (List.range s.cfg.k.toNat) = some src ∧
      solve s.build s.solveDims (constraintMatrix s.build s.cfg) (encodeRhs s.cfg src) = .ok out ∧
      t = ((s.beginSolve s.cfg.l.toNat).endSolve s.cfg.l.toNat out).complete := by
  change execBlkEncode s = _ at h
  rw [execBlkEncode, needConfig_of_valid hv] at h
  obtain ⟨src, hsrc, h⟩ := orNoValue_next h
  obtain ⟨e, -, rfl⟩ | ⟨out, hout, h⟩ := solveThen_next h
  · cases herr
  · exact ⟨src, out, hsrc, hout, finish_next h⟩

/-- After a successful BLK_ENCODE every row [0, L) of SYM_C holds a symbol, and together they solve the encoding system. -/
theorem blkEncode_solution (hs : MachineOk s) (hv : s.status.cfgValid = true) (h : exec .blkEncode s = .next t)
    (herr : t.status.err = false) :
    t.build = s.build ∧ t.cfg = s.cfg ∧ (∀ n < lOf s, Valued t.mem (cRow s n) (tOf s)) ∧
      ∃ src, s.readSymRows .symSrc (List.range s.cfg.k.toNat) = some src ∧
        ∀ k < tOf s, ∀ r < lOf s, rowDot s.build ((constraintMatrix s.build s.cfg).getD r [])
          (fun n => val t.mem (cRow s n + k)) = ((encodeRhs s.cfg src).getD r []).getD k 0 := by
  obtain ⟨src, out, hsrc, hout, rfl⟩ := blkEncode_solved hv h herr
  obtain ⟨hperm, hlen, hsol⟩ := solve_spec hs.build (encodingSystem_shaped hs hv hsrc) hout
  have hfits := hs.blockFits hv
  have hrows : (constraintMatrix s.build s.cfg).length = lOf s := (length_constraintMatrix _ _).trans hfits.rows
  have hread {q : Nat × Symbol} (hq : q ∈ out) {k : Nat} (hk : k < tOf s) :
      ((s.beginSolve s.cfg.l.toNat).endSolve s.cfg.l.toNat out).complete.mem.read (cRow s q.1 + k) =
        some (q.2.getD k 0) := by
    rw [State.complete_mem, State.endSolve_mem]
    exact State.read_writeSymRows_row (s := (s.beginSolve s.cfg.l.toNat).clearScratch s.cfg.l.toNat) (r := .symC)
      (hperm.nodup_iff.2 List.nodup_range) (fun p hp => (hlen p hp).trans_le hfits.t) hq (hk.trans_eq (hlen q hq).symm)
  refine ⟨by simp, by simp, fun n hn k hk => ?_, src, hsrc, fun k hk r hr => ?_⟩
  · obtain ⟨q, hq, rfl⟩ := List.mem_map.1 (hperm.mem_iff.2 (List.mem_range.2 hn))
    rw [hread hq hk]
    rfl
  · refine (hsol _ k).2 hrows (fun q hq => ?_) r (hr.trans_eq hrows.symm)
    rw [val, hread hq hk]
    rfl

end

theorem map_range_getD {v : List Byte} {n : Nat} (h : v.length = n) : ((List.range n).map fun k => v.getD k 0) = v := by
  rw [← take_eq_map_range h.ge, ← h, List.take_length]

/-- Settles O56: row S + H + X of the encoding system is pattern(X), whose product with SYM_C is enc(X). -/
theorem encodingIsSystematic : Obligations.EncodingIsSystematic := by
  unfold Obligations.EncodingIsSystematic
  intro s t hs hv _ h herr x hx
  obtain ⟨hbuild, hcfg, hvalued, src, hsrc, hsol⟩ := blkEncode_solution hs hv h herr
  have hrows : s.cfg.s.toNat + s.cfg.h.toNat + s.cfg.kp.toNat = lOf s := (hs.blockFits hv).rows
  have hrhs : (encodeRhs s.cfg src).getD (s.cfg.s.toNat + s.cfg.h.toNat + x) [] =
      if x < kOf s then symbolAt s.mem (srcRow s x) (tOf s) else List.replicate (tOf s) 0 := by
    have hsource := State.readSymRows_eq_map hsrc
    rw [getD_encodeRhs (by simp [hsource]) hx, hsource]
    exact if_ctx_congr Iff.rfl (fun hk => getD_map_range _ _ hk) fun _ => rfl
  have hproduct {k : Nat} (hk : k < tOf s) : xorAll ((List.range (lOf s)).map fun c =>
      gfMul s.build ((patternOf s.build s.cfg x).getD c 0) (val t.mem (cRow s c + k))) =
        (if x < kOf s then symbolAt s.mem (srcRow s x) (tOf s) else List.replicate (tOf s) 0).getD k 0 := by
    rw [← hrhs, ← hsol k hk _ (by omega), getD_constraintMatrix_genc hx, rowDot, length_patternOf]
    rfl
  have henc := State.enc_eq_patternProduct (s := t) (hbuild ▸ hs.build) (hcfg ▸ hs.walkFits hv)
    (by simpa only [lOf, tOf, cRow, hbuild, hcfg] using hvalued) x
  simp only [lOf, tOf, cRow, hbuild, hcfg] at henc hproduct
  rw [henc, Option.some.injEq, List.map_congr_left fun k hk => hproduct (List.mem_range.1 hk)]
  exact map_range_getD (by split <;> simp [symbolAt])

end Sys2Proof.Machine
end

section
/-! PROOFS. The row that a phase 1 step chooses (spec/44_pi_solver.md R222 to R226): the candidates of the window, and the
connected components of the graph of its rows with two nonzeros. -/

namespace Sys2Proof.Machine
open Sys2Proof.Claims

/-! ### Lists: the first element with a property, the largest number -/

/-- In a list that rises in `f`, the first element with a property is the lowest one with it. -/
theorem le_of_find?_eq_some {α : Type} {f : α → Nat} {p : α → Bool} {l : List α} (hl : l.Pairwise fun x y => f x < f y)
    {x y : α} (hx : l.find? p = some x) (hy : y ∈ l) (hpy : p y = true) : f x ≤ f y := by
  obtain ⟨-, before, after, rfl, hbefore⟩ := List.find?_eq_some_iff_append.1 hx
  obtain hmem | hmem := List.mem_append.1 hy
  · exact absurd hpy (by simpa using hbefore y hmem)
  · obtain rfl | hafter := List.mem_cons.1 hmem
    · exact le_rfl
    · exact ((List.pairwise_cons.1 (List.pairwise_append.1 hl).2.1).1 y hafter).le

theorem foldl_max_spec (l : List Nat) (a : Nat) : l.foldl max a ∈ a :: l ∧ ∀ x ∈ a :: l, x ≤ l.foldl max a := by
  induction l generalizing a with
  | nil => simp
  | cons x l ih =>
    obtain ⟨hmem, hle⟩ := ih (max a x)
    obtain ⟨hmax, hrest⟩ := List.forall_mem_cons.1 hle
    obtain ⟨ha, hx⟩ := max_le_iff.1 hmax
    refine ⟨?_, List.forall_mem_cons.2 ⟨ha, List.forall_mem_cons.2 ⟨hx, hrest⟩⟩⟩
    obtain heq | hin := List.mem_cons.1 hmem
    · rw [List.foldl_cons, heq]
      obtain h | h := max_choice a x <;> simp [h]
    · exact List.mem_cons_of_mem _ (List.mem_cons_of_mem _ hin)

/-! ### The nonzeros of a window (R223) -/

section
variable {row : Row} {i hi : Nat}

theorem mem_nonzeroCols {j : Nat} : j ∈ nonzeroCols row i hi ↔ (i ≤ j ∧ j < hi) ∧ row.getD j 0 ≠ 0 := by
  rw [nonzeroCols, List.mem_filter, List.mem_range'_1, bne_iff_ne]
  exact and_congr_left fun _ => and_congr_right fun _ => by omega

theorem card_windowSupport (row : Row) (i hi : Nat) : (windowSupport row i hi).card = (nonzeroCols row i hi).length := by
  have hset : windowSupport row i hi = (nonzeroCols row i hi).toFinset := by
    ext j
    rw [mem_windowSupport, List.mem_toFinset, mem_nonzeroCols]
  rw [hset]
  exact List.toFinset_card_of_nodup (List.Nodup.filter _ List.nodup_range')

/-- nz counts the nonzeros of the window, also where the row ends before it. -/
theorem nzCount_eq_length (row : Row) (i hi : Nat) : nzCount row i hi = (nonzeroCols row i hi).length := by
  have hsupport : windowSupport row i (min hi row.length) = windowSupport row i hi := by
    ext j
    rw [mem_windowSupport, mem_windowSupport]
    refine and_congr_left fun hne => ?_
    have hj : j < row.length := by
      by_contra hout
      exact hne (List.getD_eq_default _ _ (Nat.le_of_not_lt hout))
    omega
  have htake : nzCount row i hi = nzCount row i (min hi row.length) := by
    rw [nzCount, nzCount, List.take_eq_take_min]
  rw [htake, nzCount_eq_card (Nat.min_le_right _ _), hsupport, card_windowSupport]

theorem nzOf_eq_length (st : Solver) (k i hi : Nat) : nzOf st k i hi = (nonzeroCols (st.a.getD k []) i hi).length := rfl

end

/-! ### The candidates (R222, R224) -/

section
variable {m : SolveDims} {st : Solver} {i hi k r : Nat}

theorem mem_windowRows {p : Prop} {hdpc : Bool} (hp : p ↔ hdpc = true) :
    (k, r) ∈ windowRows m st i hi hdpc ↔ Candidate m st i hi p k ∧ nzOf st k i hi = r := by
  have hlabel : (isHdpcRow m st k == hdpc) = true ↔
      ((m.s ≤ st.rowD.getD k 0 ∧ st.rowD.getD k 0 < m.s + m.h) ↔ p) := by
    rw [hp, beq_iff_eq, Bool.eq_iff_iff, isHdpcRow, Bool.and_eq_true, decide_eq_true_iff, decide_eq_true_iff]
    rfl
  rw [windowRows, List.mem_filter, List.mem_map, Bool.and_eq_true, hlabel, decide_eq_true_iff]
  constructor
  · rintro ⟨⟨q, hq, heq⟩, hpos, hkind⟩
    obtain ⟨rfl, rfl⟩ := Prod.mk.inj heq
    rw [List.mem_range'_1] at hq
    rw [nzCount_eq_length, ← nzOf_eq_length] at hpos ⊢
    exact ⟨⟨hq.1, by omega, hpos, hkind⟩, rfl⟩
  · rintro ⟨⟨hik, hk, hpos, hkind⟩, rfl⟩
    refine ⟨⟨k, List.mem_range'_1.2 (by omega), ?_⟩, hpos, hkind⟩
    rw [nzCount_eq_length, ← nzOf_eq_length]

theorem mem_windowRows_others : (k, r) ∈ windowRows m st i hi false ↔ Candidate m st i hi False k ∧ nzOf st k i hi = r :=
  mem_windowRows (by simp)

theorem mem_windowRows_hdpc : (k, r) ∈ windowRows m st i hi true ↔ Candidate m st i hi True k ∧ nzOf st k i hi = r :=
  mem_windowRows (by simp)

theorem windowRows_eq_nil {p : Prop} {hdpc : Bool} (hp : p ↔ hdpc = true) :
    windowRows m st i hi hdpc = [] ↔ ∀ k, ¬Candidate m st i hi p k := by
  rw [List.eq_nil_iff_forall_not_mem]
  refine ⟨fun h k hk => h _ ((mem_windowRows hp).2 ⟨hk, rfl⟩), fun h q hq => ?_⟩
  exact h q.1 ((mem_windowRows (k := q.1) (r := q.2) hp).1 hq).1

theorem windowRows_sorted (m : SolveDims) (st : Solver) (i hi : Nat) (hdpc : Bool) :
    (windowRows m st i hi hdpc).Pairwise fun p q => p.1 < q.1 :=
  ((List.pairwise_map (R := fun p q : Nat × Nat => p.1 < q.1)).2 List.pairwise_lt_range').filter _

end

/-! ### The lowest row with a count (R225) -/

/-- The first row of a list with this count. -/
def firstWithCount (rows : List (Nat × Nat)) (r : Nat) : Option Nat := (rows.find? fun q => q.2 == r).map (·.1)

section
variable {rows : List (Nat × Nat)} {k r : Nat}

theorem firstWithCount_spec (hrows : rows.Pairwise fun p q => p.1 < q.1) (h : firstWithCount rows r = some k) :
    (k, r) ∈ rows ∧ ∀ q, (q, r) ∈ rows → k ≤ q := by
  obtain ⟨p, hp, rfl⟩ := Option.map_eq_some_iff.1 h
  have hcount : p.2 = r := beq_iff_eq.1 (List.find?_some hp :)
  subst hcount
  exact ⟨List.mem_of_find?_eq_some hp, fun q hq => le_of_find?_eq_some hrows hp hq (beq_self_eq_true _)⟩

theorem le_of_min? (h : (rows.map (·.2)).min? = some r) {n : Nat} (hmem : (k, n) ∈ rows) : r ≤ n :=
  (List.min?_eq_some_iff.1 h).2 n (List.mem_map_of_mem (f := (·.2)) hmem)

theorem firstWithCount_ne_none (h : (rows.map (·.2)).min? = some r) : firstWithCount rows r ≠ none := by
  obtain ⟨q, hq, rfl⟩ := List.mem_map.1 (List.min?_mem h)
  rw [firstWithCount, Ne, Option.map_eq_none_iff, List.find?_eq_none]
  exact fun hnone => hnone q hq (beq_self_eq_true _)

end

/-! ### The components of a graph (R226) -/

/-- Two columns are ends of one edge. -/
def EdgeJoins (edges : List Edge) (x y : Nat) : Prop :=
  ∃ e ∈ edges, (x = e.c1 ∨ x = e.c2) ∧ (y = e.c1 ∨ y = e.c2)

/-- The columns that edges connect with a column. -/
def componentOf (edges : List Edge) (x : Nat) : Set Nat := { y | Relation.ReflTransGen (EdgeJoins edges) x y }

namespace EdgeJoins

variable {edges : List Edge} {e : Edge} {x y : Nat}

theorem symm (h : EdgeJoins edges x y) : EdgeJoins edges y x :=
  let ⟨e, he, hx, hy⟩ := h; ⟨e, he, hy, hx⟩

theorem left (h : EdgeJoins edges x y) : EdgeJoins edges x x :=
  let ⟨e, he, hx, _⟩ := h; ⟨e, he, hx, hx⟩

theorem concat : EdgeJoins (edges ++ [e]) x y ↔
    EdgeJoins edges x y ∨ (x = e.c1 ∨ x = e.c2) ∧ (y = e.c1 ∨ y = e.c2) := by
  simp only [EdgeJoins, List.mem_append, List.mem_singleton, or_and_right, exists_or, exists_eq_left]

theorem reach_symm (h : Relation.ReflTransGen (EdgeJoins edges) x y) : Relation.ReflTransGen (EdgeJoins edges) y x := by
  induction h with
  | refl => exact .refl
  | tail _ hstep ih => exact .head hstep.symm ih

theorem reach_concat (h : Relation.ReflTransGen (EdgeJoins edges) x y) :
    Relation.ReflTransGen (EdgeJoins (edges ++ [e])) x y :=
  Relation.ReflTransGen.mono (fun _ _ hj => concat.2 (.inl hj)) _ _ h

end EdgeJoins

/-- The lists are the connected components of the edges' graph: disjoint, of its vertices, closed under its edges, and each
connected. -/
structure IsComponents (edges : List Edge) (comps : List (List Nat)) : Prop where
  nodup : comps.flatten.Nodup
  nonempty : ∀ c ∈ comps, c ≠ []
  vertices : ∀ x, EdgeJoins edges x x ↔ ∃ c ∈ comps, x ∈ c
  closed : ∀ c ∈ comps, ∀ x ∈ c, ∀ y, EdgeJoins edges x y → y ∈ c
  connected : ∀ c ∈ comps, ∀ x ∈ c, ∀ y ∈ c, y ∈ componentOf edges x

/-- The component holds an end of the edge. -/
def Edge.touches (e : Edge) (c : List Nat) : Bool := c.contains e.c1 || c.contains e.c2

/-- What becomes of the components that the edge touches. -/
def joinedComponent (comps : List (List Nat)) (e : Edge) : List Nat :=
  ((comps.filter e.touches).flatten.insert e.c1).insert e.c2

section
variable {edges : List Edge} {comps : List (List Nat)} {e : Edge} {c : List Nat} {x : Nat}

theorem Edge.touches_iff : e.touches c = true ↔ e.c1 ∈ c ∨ e.c2 ∈ c := by simp [Edge.touches]

theorem joinEdge_eq_cons (comps : List (List Nat)) (e : Edge) :
    joinEdge comps e = joinedComponent comps e :: comps.filter fun c => !e.touches c := rfl

theorem mem_joinEdge : c ∈ joinEdge comps e ↔ c = joinedComponent comps e ∨ c ∈ comps ∧ ¬(e.c1 ∈ c ∨ e.c2 ∈ c) := by
  rw [joinEdge_eq_cons, List.mem_cons, List.mem_filter, Bool.not_eq_true', ← Bool.not_eq_true, Edge.touches_iff]

theorem mem_joinedComponent :
    x ∈ joinedComponent comps e ↔ (x = e.c1 ∨ x = e.c2) ∨ ∃ c ∈ comps, (e.c1 ∈ c ∨ e.c2 ∈ c) ∧ x ∈ c := by
  rw [joinedComponent, List.mem_insert_iff, List.mem_insert_iff, or_left_comm, ← or_assoc]
  simp only [List.mem_flatten, List.mem_filter, Edge.touches_iff, and_assoc]

namespace IsComponents

theorem nil : IsComponents [] [] where
  nodup := List.nodup_nil
  nonempty _ hc := absurd hc List.not_mem_nil
  vertices _ := by simp [EdgeJoins]
  closed _ hc := absurd hc List.not_mem_nil
  connected _ hc := absurd hc List.not_mem_nil

variable (h : IsComponents edges comps)
include h

theorem nodup_joinEdge (e : Edge) : (joinEdge comps e).flatten.Nodup := by
  have hparts : ((comps.filter e.touches).flatten ++ (comps.filter fun c => !e.touches c).flatten).Nodup := by
    rw [← List.flatten_append]
    exact (List.filter_append_perm _ _).flatten.nodup_iff.2 h.nodup
  obtain ⟨hold, hrest, hdisjoint⟩ := List.nodup_append'.1 hparts
  rw [joinEdge_eq_cons, List.flatten_cons]
  refine List.nodup_append'.2 ⟨(hold.insert).insert, hrest, fun x hx hxrest => ?_⟩
  obtain ⟨c, hc, hxc⟩ := List.mem_flatten.1 hxrest
  obtain ⟨hc, hfar⟩ := List.mem_filter.1 hc
  rw [Bool.not_eq_true', ← Bool.not_eq_true, Edge.touches_iff] at hfar
  obtain (rfl | rfl) | ⟨c', hc', htouch, hxc'⟩ := mem_joinedComponent.1 hx
  · exact hfar (.inl hxc)
  · exact hfar (.inr hxc)
  · exact hdisjoint (List.mem_flatten.2 ⟨c', List.mem_filter.2 ⟨hc', Edge.touches_iff.2 htouch⟩, hxc'⟩) hxrest

theorem closed_joinedComponent {x y : Nat} (hx : x ∈ joinedComponent comps e) (hxy : EdgeJoins (edges ++ [e]) x y) :
    y ∈ joinedComponent comps e := by
  obtain hold | ⟨-, hy⟩ := EdgeJoins.concat.1 hxy
  · obtain ⟨c, hc, htouch, hxc⟩ : ∃ c ∈ comps, (e.c1 ∈ c ∨ e.c2 ∈ c) ∧ x ∈ c := by
      obtain hend | hc := mem_joinedComponent.1 hx
      · obtain ⟨c, hc, hxc⟩ := (h.vertices x).1 hold.left
        obtain rfl | rfl := hend
        · exact ⟨c, hc, .inl hxc, hxc⟩
        · exact ⟨c, hc, .inr hxc, hxc⟩
      · exact hc
    exact mem_joinedComponent.2 (.inr ⟨c, hc, htouch, h.closed c hc x hxc y hold⟩)
  · exact mem_joinedComponent.2 (.inl hy)

/-- Every column of the new component is connected with an end of the edge. -/
theorem reach_joinedComponent (hx : x ∈ joinedComponent comps e) : x ∈ componentOf (edges ++ [e]) e.c1 := by
  have hend {y : Nat} (hy : y = e.c1 ∨ y = e.c2) : EdgeJoins (edges ++ [e]) e.c1 y :=
    EdgeJoins.concat.2 (.inr ⟨.inl rfl, hy⟩)
  obtain hx | ⟨c, hc, hc1 | hc2, hxc⟩ := mem_joinedComponent.1 hx
  · exact .single (hend hx)
  · exact EdgeJoins.reach_concat (h.connected c hc _ hc1 x hxc)
  · exact .head (hend (.inr rfl)) (EdgeJoins.reach_concat (h.connected c hc _ hc2 x hxc))

theorem joinEdge (e : Edge) : IsComponents (edges ++ [e]) (joinEdge comps e) where
  nodup := h.nodup_joinEdge e
  nonempty c hc := by
    obtain rfl | ⟨hc, -⟩ := mem_joinEdge.1 hc
    · exact List.ne_nil_of_mem (mem_joinedComponent.2 (.inl (.inl rfl)))
    · exact h.nonempty c hc
  vertices x := by
    rw [EdgeJoins.concat, h.vertices, and_self]
    constructor
    · rintro (⟨c, hc, hx⟩ | hx)
      · by_cases htouch : e.c1 ∈ c ∨ e.c2 ∈ c
        · exact ⟨_, mem_joinEdge.2 (.inl rfl), mem_joinedComponent.2 (.inr ⟨c, hc, htouch, hx⟩)⟩
        · exact ⟨c, mem_joinEdge.2 (.inr ⟨hc, htouch⟩), hx⟩
      · exact ⟨_, mem_joinEdge.2 (.inl rfl), mem_joinedComponent.2 (.inl hx)⟩
    · rintro ⟨c, hc, hx⟩
      obtain rfl | ⟨hc, -⟩ := mem_joinEdge.1 hc
      · obtain hx | ⟨c, hc, -, hx⟩ := mem_joinedComponent.1 hx
        · exact .inr hx
        · exact .inl ⟨c, hc, hx⟩
      · exact .inl ⟨c, hc, hx⟩
  closed c hc x hx y hxy := by
    obtain rfl | ⟨hc, hfar⟩ := mem_joinEdge.1 hc
    · exact h.closed_joinedComponent hx hxy
    · obtain hold | ⟨hend, -⟩ := EdgeJoins.concat.1 hxy
      · exact h.closed c hc x hx y hold
      · exact absurd (hend.imp (fun heq => heq ▸ hx) fun heq => heq ▸ hx) hfar
  connected c hc x hx y hy := by
    obtain rfl | ⟨hc, -⟩ := mem_joinEdge.1 hc
    · exact (EdgeJoins.reach_symm (h.reach_joinedComponent hx)).trans (h.reach_joinedComponent hy)
    · exact EdgeJoins.reach_concat (h.connected c hc x hx y hy)

/-- A component is what the edges connect with any of its columns. -/
theorem ncard_componentOf (hc : c ∈ comps) (hx : x ∈ c) : (componentOf edges x).ncard = c.length := by
  have hset : componentOf edges x = (c.toFinset : Set Nat) := by
    ext y
    rw [List.coe_toFinset]
    refine ⟨fun hy => ?_, h.connected c hc x hx y⟩
    induction hy with
    | refl => exact hx
    | tail _ hstep ih => exact h.closed c hc _ ih _ hstep
  rw [hset, Set.ncard_coe_finset, List.toFinset_card_of_nodup ((List.nodup_flatten.1 h.nodup).1 c hc)]

end IsComponents

theorem componentsOf_isComponents (edges : List Edge) : IsComponents edges (componentsOf edges) := by
  induction edges using List.reverseRecOn with
  | nil => exact .nil
  | append_singleton edges e ih =>
    rw [componentsOf, List.foldl_append]
    exact ih.joinEdge e

end

/-! ### The choice by the graph (R226) -/

/-- The edge lies in a component of maximum size. -/
def InLargest (edges : List Edge) (e : Edge) : Prop :=
  ∀ y, EdgeJoins edges y y → (componentOf edges y).ncard ≤ (componentOf edges e.c1).ncard

section
variable {edges : List Edge} {e : Edge}

theorem EdgeJoins.ends (he : e ∈ edges) : EdgeJoins edges e.c1 e.c2 := ⟨e, he, .inl rfl, .inr rfl⟩

/-- The size of the largest component, as the model computes it. -/
theorem best_spec (he : e ∈ edges) :
    (∃ y, EdgeJoins edges y y ∧ (componentOf edges y).ncard = ((componentsOf edges).map List.length).foldl max 0) ∧
      ∀ y, EdgeJoins edges y y → (componentOf edges y).ncard ≤ ((componentsOf edges).map List.length).foldl max 0 := by
  have h := componentsOf_isComponents edges
  obtain ⟨hmem, hle⟩ := foldl_max_spec ((componentsOf edges).map List.length) 0
  have hupper (y : Nat) (hy : EdgeJoins edges y y) :
      (componentOf edges y).ncard ≤ ((componentsOf edges).map List.length).foldl max 0 := by
    obtain ⟨c, hc, hyc⟩ := (h.vertices y).1 hy
    rw [h.ncard_componentOf hc hyc]
    exact hle _ (List.mem_cons_of_mem _ (List.mem_map_of_mem hc))
  refine ⟨?_, hupper⟩
  obtain hzero | hmem := List.mem_cons.1 hmem
  · refine ⟨e.c1, (EdgeJoins.ends he).left, Nat.le_antisymm (hupper _ (EdgeJoins.ends he).left) ?_⟩
    rw [hzero]
    exact Nat.zero_le _
  · obtain ⟨c, hc, hlen⟩ := List.mem_map.1 hmem
    obtain ⟨y, hy⟩ := List.exists_mem_of_ne_nil c (h.nonempty c hc)
    exact ⟨y, (h.vertices y).2 ⟨c, hc, hy⟩, (h.ncard_componentOf hc hy).trans hlen⟩

theorem inLargest_iff (he : e ∈ edges) :
    ((componentsOf edges).any fun c => c.contains e.c1 &&
      c.length == ((componentsOf edges).map List.length).foldl max 0) = true ↔ InLargest edges e := by
  have h := componentsOf_isComponents edges
  obtain ⟨⟨y, hy, hbest⟩, hupper⟩ := best_spec he
  have he1 := (EdgeJoins.ends he).left
  simp only [List.any_eq_true, Bool.and_eq_true, List.contains_iff_mem, beq_iff_eq]
  constructor
  · rintro ⟨c, hc, hec, hlen⟩ z hz
    rw [h.ncard_componentOf hc hec, hlen]
    exact hupper z hz
  · intro hmax
    obtain ⟨c, hc, hec⟩ := (h.vertices _).1 he1
    refine ⟨c, hc, hec, ?_⟩
    rw [← h.ncard_componentOf hc hec]
    exact Nat.le_antisymm (hupper _ he1) (hbest ▸ hmax y hy)

/-- The graph gives the lowest row whose edge lies in a component of maximum size. -/
theorem graphChoice_spec (hedges : edges.Pairwise fun e f => e.row < f.row) {k : Nat} (h : graphChoice edges = some k) :
    (∃ e ∈ edges, e.row = k ∧ InLargest edges e) ∧ ∀ e ∈ edges, InLargest edges e → k ≤ e.row := by
  obtain ⟨e, he, rfl⟩ := Option.map_eq_some_iff.1 h
  have hmem := List.mem_of_find?_eq_some he
  exact ⟨⟨e, hmem, rfl, (inLargest_iff hmem).1 (List.find?_some he :)⟩,
    fun f hf hmax => le_of_find?_eq_some hedges he hf ((inLargest_iff hf).2 hmax)⟩

theorem graphChoice_ne_none (he : e ∈ edges) : graphChoice edges ≠ none := by
  obtain ⟨⟨y, hy, hbest⟩, hupper⟩ := best_spec he
  obtain ⟨f, hf, hyf, -⟩ := id hy
  have hsame : componentOf edges f.c1 = componentOf edges y := by
    have hreach : y ∈ componentOf edges f.c1 := .single ⟨f, hf, .inl rfl, hyf⟩
    ext z
    exact ⟨(EdgeJoins.reach_symm hreach).trans, hreach.trans⟩
  rw [graphChoice, Ne, Option.map_eq_none_iff, List.find?_eq_none]
  refine fun hnone => hnone f hf ((inLargest_iff hf).2 fun z hz => ?_)
  rw [hsame, hbest]
  exact hupper z hz

end

/-! ### The graph of the window (R226) -/

section
variable {m : SolveDims} {st : Solver} {i hi : Nat}

/-- The edge of a row, if its window holds just two nonzeros. -/
def edgeOf (st : Solver) (i hi : Nat) (q : Nat × Nat) : Option Edge :=
  match nonzeroCols (st.a.getD q.1 []) i hi with
  | [x, y] => some ⟨q.1, x, y⟩
  | _ => none

theorem edgesOf_eq (st : Solver) (rows : List (Nat × Nat)) (i hi : Nat) :
    edgesOf st rows i hi = (rows.filter fun q => q.2 == 2).filterMap (edgeOf st i hi) := rfl

theorem edgeOf_eq_some {q : Nat × Nat} {e : Edge} :
    edgeOf st i hi q = some e ↔ q.1 = e.row ∧ nonzeroCols (st.a.getD e.row []) i hi = [e.c1, e.c2] := by
  constructor
  · intro h
    rw [edgeOf] at h
    split at h
    · obtain rfl := Option.some.inj h
      exact ⟨rfl, ‹_›⟩
    · cases h
  · rintro ⟨hrow, hcols⟩
    rw [edgeOf, hrow, hcols]

theorem mem_edgesOf {rows : List (Nat × Nat)} {e : Edge} : e ∈ edgesOf st rows i hi ↔
    (e.row, 2) ∈ rows ∧ nonzeroCols (st.a.getD e.row []) i hi = [e.c1, e.c2] := by
  simp only [edgesOf_eq, List.mem_filterMap, List.mem_filter, edgeOf_eq_some, beq_iff_eq]
  constructor
  · rintro ⟨⟨k, n⟩, ⟨hmem, rfl⟩, rfl, hcols⟩
    exact ⟨hmem, hcols⟩
  · rintro ⟨hmem, hcols⟩
    exact ⟨(e.row, 2), ⟨hmem, rfl⟩, rfl, hcols⟩

theorem edgesOf_sorted {rows : List (Nat × Nat)} (hrows : rows.Pairwise fun p q => p.1 < q.1) :
    (edgesOf st rows i hi).Pairwise fun e f => e.row < f.row := by
  rw [edgesOf_eq]
  refine List.pairwise_filterMap.2 ((hrows.filter _).imp fun hlt e he f hf => ?_)
  rwa [← (edgeOf_eq_some.1 he).1, ← (edgeOf_eq_some.1 hf).1]

/-- The edges of the window (R226). -/
abbrev windowEdges (m : SolveDims) (st : Solver) (i hi : Nat) : List Edge := edgesOf st (windowRows m st i hi false) i hi

theorem mem_windowEdges {e : Edge} : e ∈ windowEdges m st i hi ↔
    Candidate m st i hi False e.row ∧ nonzeroCols (st.a.getD e.row []) i hi = [e.c1, e.c2] := by
  rw [mem_edgesOf, mem_windowRows_others, nzOf_eq_length, and_assoc]
  exact and_congr_right fun _ => and_iff_right_of_imp fun hcols => by rw [hcols]; rfl

/-- Every candidate with two nonzeros is an edge. -/
theorem exists_windowEdge {k : Nat} (hk : Candidate m st i hi False k) (htwo : nzOf st k i hi = 2) :
    ∃ e ∈ windowEdges m st i hi, e.row = k := by
  rw [nzOf_eq_length, List.length_eq_two] at htwo
  obtain ⟨x, y, hcols⟩ := htwo
  exact ⟨⟨k, x, y⟩, mem_windowEdges.2 ⟨hk, hcols⟩, rfl⟩

/-- The ends of an edge are the columns of the window where its row is nonzero. -/
theorem windowEdge_ends {e : Edge} (he : e ∈ windowEdges m st i hi) {x : Nat} :
    (i ≤ x ∧ x < hi) ∧ entryOf st.a e.row x ≠ 0 ↔ x = e.c1 ∨ x = e.c2 := by
  rw [entryOf, ← mem_nonzeroCols, (mem_windowEdges.1 he).2, List.mem_pair]

theorem nzOf_windowEdge {e : Edge} (he : e ∈ windowEdges m st i hi) : nzOf st e.row i hi = 2 := by
  rw [nzOf_eq_length, (mem_windowEdges.1 he).2]
  rfl

theorem joinedBy_eq : JoinedBy m st i hi = EdgeJoins (windowEdges m st i hi) := by
  funext x y
  rw [eq_iff_iff]
  constructor
  · rintro ⟨k, hk, htwo, hix, hx, hiy, hy, hx0, hy0⟩
    obtain ⟨e, he, rfl⟩ := exists_windowEdge hk htwo
    exact ⟨e, he, (windowEdge_ends he).1 ⟨⟨hix, hx⟩, hx0⟩, (windowEdge_ends he).1 ⟨⟨hiy, hy⟩, hy0⟩⟩
  · rintro ⟨e, he, hx, hy⟩
    obtain ⟨⟨hix, hx⟩, hx0⟩ := (windowEdge_ends he).2 hx
    obtain ⟨⟨hiy, hy⟩, hy0⟩ := (windowEdge_ends he).2 hy
    exact ⟨e.row, (mem_windowEdges.1 he).1, nzOf_windowEdge he, hix, hx, hiy, hy, hx0, hy0⟩

theorem componentSize_eq (x : Nat) : componentSize m st i hi x = (componentOf (windowEdges m st i hi) x).ncard := by
  rw [componentSize, joinedBy_eq]
  rfl

theorem maxEdge_iff {k : Nat} :
    MaxEdge m st i hi k ↔ ∃ e ∈ windowEdges m st i hi, e.row = k ∧ InLargest (windowEdges m st i hi) e := by
  simp only [MaxEdge, componentSize_eq, joinedBy_eq]
  constructor
  · rintro ⟨hk, htwo, hmax⟩
    obtain ⟨e, he, rfl⟩ := exists_windowEdge hk htwo
    obtain ⟨⟨hi1, hi2⟩, hne⟩ := (windowEdge_ends he).2 (.inl rfl)
    exact ⟨e, he, rfl, hmax e.c1 hi1 hi2 hne⟩
  · rintro ⟨e, he, rfl, hmax⟩
    refine ⟨(mem_windowEdges.1 he).1, nzOf_windowEdge he, fun x hix hx hne y hy => ?_⟩
    have hsame : componentOf (windowEdges m st i hi) x = componentOf (windowEdges m st i hi) e.c1 := by
      have hreach : x ∈ componentOf (windowEdges m st i hi) e.c1 :=
        .single ⟨e, he, .inl rfl, (windowEdge_ends he).1 ⟨⟨hix, hx⟩, hne⟩⟩
      ext z
      exact ⟨hreach.trans, (EdgeJoins.reach_symm hreach).trans⟩
    rw [hsame]
    exact hmax y hy

/-! ### The choice (R224, R225, R231) -/

section
variable (h : windowRows m st i hi false ≠ [])
include h

theorem chooseRow_of_others : chooseRow m st i hi =
    (((windowRows m st i hi false).map (·.2)).min?).bind fun r =>
      (if r = 2 then graphChoice (windowEdges m st i hi) else firstWithCount (windowRows m st i hi false) r).map (·, r) := by
  rw [chooseRow, if_neg h]
  cases ((windowRows m st i hi false).map (·.2)).min? with
  | none => rfl
  | some r => simp only [and_iff_left h]; rfl

theorem chooseRow_ne_none_of_others : chooseRow m st i hi ≠ none := by
  rw [chooseRow_of_others h]
  cases hmin : ((windowRows m st i hi false).map (·.2)).min? with
  | none => exact absurd (List.map_eq_nil_iff.1 (List.min?_eq_none_iff.1 hmin)) h
  | some r =>
    rw [Option.bind_some, Ne, Option.map_eq_none_iff]
    split
    · rename_i htwo
      subst htwo
      obtain ⟨⟨k, _⟩, hmem, rfl⟩ := List.mem_map.1 (List.min?_mem hmin)
      obtain ⟨hk, htwo⟩ := mem_windowRows_others.1 hmem
      obtain ⟨e, he, -⟩ := exists_windowEdge hk htwo
      exact graphChoice_ne_none he
    · exact firstWithCount_ne_none hmin

/-- Among the other rows: one of those with the fewest nonzeros, the lowest (R225) or the one that the graph gives (R226). -/
theorem chooseRow_others_spec {k r : Nat} (hc : chooseRow m st i hi = some (k, r)) :
    Candidate m st i hi False k ∧ nzOf st k i hi = r ∧ (∀ q, Candidate m st i hi False q → r ≤ nzOf st q i hi) ∧
      (r ≠ 2 → ∀ q, Candidate m st i hi False q → nzOf st q i hi = r → k ≤ q) ∧
      (r = 2 → MaxEdge m st i hi k ∧ ∀ q, MaxEdge m st i hi q → k ≤ q) := by
  rw [chooseRow_of_others h] at hc
  obtain ⟨r', hmin, hrow⟩ := Option.bind_eq_some_iff.1 hc
  obtain ⟨k', hchoice, heq⟩ := Option.map_eq_some_iff.1 hrow
  obtain ⟨rfl, rfl⟩ := Prod.mk.inj heq
  have hleast (q : Nat) (hq : Candidate m st i hi False q) : r' ≤ nzOf st q i hi :=
    le_of_min? hmin (mem_windowRows_others.2 ⟨hq, rfl⟩)
  have hsorted := windowRows_sorted m st i hi false
  split at hchoice
  · rename_i htwo
    obtain ⟨⟨e, he, hek, hmax⟩, hlow⟩ := graphChoice_spec (edgesOf_sorted hsorted) hchoice
    have hk : MaxEdge m st i hi k' := maxEdge_iff.2 ⟨e, he, hek, hmax⟩
    refine ⟨hk.1, hk.2.1.trans htwo.symm, hleast, fun hne => absurd htwo hne, fun _ => ⟨hk, fun q hq => ?_⟩⟩
    obtain ⟨f, hf, rfl, hfmax⟩ := maxEdge_iff.1 hq
    exact hlow f hf hfmax
  · rename_i hne
    obtain ⟨hmem, hlow⟩ := firstWithCount_spec hsorted hchoice
    obtain ⟨hk, hcount⟩ := mem_windowRows_others.1 hmem
    exact ⟨hk, hcount, hleast, fun _ q hq hr => hlow q (mem_windowRows_others.2 ⟨hq, hr⟩), fun htwo => absurd htwo hne⟩

end

theorem chooseRow_of_hdpc (h : windowRows m st i hi false = []) : chooseRow m st i hi =
    (((windowRows m st i hi true).map (·.2)).min?).bind fun r => (firstWithCount (windowRows m st i hi true) r).map (·, r) := by
  rw [chooseRow, if_pos h]
  cases ((windowRows m st i hi true).map (·.2)).min? with
  | none => rfl
  | some r =>
    simp only [h, ne_eq, not_true_eq_false, and_false, if_false]
    rfl

theorem chooseRow_hdpc_eq_none (h : windowRows m st i hi false = []) :
    chooseRow m st i hi = none ↔ windowRows m st i hi true = [] := by
  rw [chooseRow_of_hdpc h]
  cases hmin : ((windowRows m st i hi true).map (·.2)).min? with
  | none => exact iff_of_true rfl (List.map_eq_nil_iff.1 (List.min?_eq_none_iff.1 hmin))
  | some r =>
    refine iff_of_false (fun hnone => ?_) fun hnil => ?_
    · exact firstWithCount_ne_none hmin (Option.map_eq_none_iff.1 hnone)
    · rw [hnil] at hmin
      cases hmin

/-- No row is chosen when the window is zero in all rows, and only then. -/
theorem chooseRow_eq_none : chooseRow m st i hi = none ↔ ∀ k p, ¬Candidate m st i hi p k := by
  have hkinds : (∀ k p, ¬Candidate m st i hi p k) ↔ windowRows m st i hi false = [] ∧ windowRows m st i hi true = [] := by
    rw [windowRows_eq_nil (p := False) (by simp), windowRows_eq_nil (p := True) (by simp)]
    refine ⟨fun h => ⟨fun k => h k False, fun k => h k True⟩, fun h k p hk => ?_⟩
    by_cases hp : p
    · exact h.2 k (by rwa [eq_true hp] at hk)
    · exact h.1 k (by rwa [eq_false hp] at hk)
  rw [hkinds]
  by_cases h : windowRows m st i hi false = []
  · rw [chooseRow_hdpc_eq_none h, and_iff_right h]
  · exact iff_of_false (chooseRow_ne_none_of_others h) fun hnil => h hnil.1

/-- Among HDPC rows: the lowest of those with the fewest nonzeros (R225). -/
theorem chooseRow_hdpc_spec (h : windowRows m st i hi false = []) {k r : Nat} (hc : chooseRow m st i hi = some (k, r)) :
    Candidate m st i hi True k ∧ nzOf st k i hi = r ∧ (∀ q, Candidate m st i hi True q → r ≤ nzOf st q i hi) ∧
      ∀ q, Candidate m st i hi True q → nzOf st q i hi = r → k ≤ q := by
  rw [chooseRow_of_hdpc h] at hc
  obtain ⟨r', hmin, hrow⟩ := Option.bind_eq_some_iff.1 hc
  obtain ⟨k', hfirst, heq⟩ := Option.map_eq_some_iff.1 hrow
  obtain ⟨rfl, rfl⟩ := Prod.mk.inj heq
  obtain ⟨hmem, hlow⟩ := firstWithCount_spec (windowRows_sorted m st i hi true) hfirst
  obtain ⟨hk, hcount⟩ := mem_windowRows_hdpc.1 hmem
  exact ⟨hk, hcount, fun q hq => le_of_min? hmin (mem_windowRows_hdpc.2 ⟨hq, rfl⟩),
    fun q hq hr => hlow q (mem_windowRows_hdpc.2 ⟨hq, hr⟩)⟩

end

/-- Settles O50: the candidates are the rows of `windowRows`; the two kinds of rows are chosen from as the specs above say. -/
theorem rowChoice : Obligations.RowChoice := by
  unfold Obligations.RowChoice
  refine fun m st i hi => ⟨chooseRow_eq_none, fun k r hc => ?_⟩
  have hothers : (∃ q, Candidate m st i hi False q) ↔ windowRows m st i hi false ≠ [] := by
    rw [Ne, windowRows_eq_nil (p := False) (by simp), not_forall_not]
  simp only [hothers]
  by_cases h : windowRows m st i hi false = []
  · obtain ⟨hk, hcount, hleast, hlow⟩ := chooseRow_hdpc_spec h hc
    have hnone := not_not.2 h
    exact ⟨hcount, fun ho => absurd ho hnone, fun _ => ⟨hk, hleast⟩, fun ho => absurd ho hnone, fun _ => hlow,
      fun ho => absurd ho hnone⟩
  · obtain ⟨hk, hcount, hleast, hlow, hgraph⟩ := chooseRow_others_spec h hc
    exact ⟨hcount, fun _ => ⟨hk, hleast⟩, fun hn => absurd h hn, fun _ => hlow, fun hn => absurd h hn, fun _ => hgraph⟩

end Sys2Proof.Machine
end

section
/-! PROOFS. When the solver fails, and what it answers (spec/44_pi_solver.md R231, R232, R241, R242): a phase that finds no pivot
stands before a singular system, and a singular system has no unit rows to end in. -/

namespace Sys2Proof.Machine
open Sys2Proof.Claims

/-! ### Vectors that all rows send to 0 -/

/-- Column p depends on the columns before it: the first p rows are upper triangular with a nonzero diagonal, and the rows from p
on are zero up to column p. -/
structure DependentColumn (n p : Nat) (a : List Row) : Prop where
  diag : ∀ r < p, entryOf a r r ≠ 0
  zero : ∀ r < n, ∀ c ≤ p, c < r ∨ p ≤ r → entryOf a r c = 0

section
variable {b : Build} (hb : BuildOk b)

theorem rowDot_single (row : Row) (c : Nat) (v : Byte) :
    rowDot b row (fun j => if j = c then v else 0) = gfMul b (row.getD c 0) v := by
  by_cases hc : c < row.length
  · rw [rowDot, xorAll_range_single hc fun j _ hj => by rw [if_neg hj, gfMul_zero_right], if_pos rfl]
  · rw [List.getD_eq_default _ _ (Nat.le_of_not_lt hc), gfMul_zero_left]
    refine xorAll_map_zero fun j hj => ?_
    have := List.mem_range.1 hj
    simp only [if_neg (show j ≠ c by omega), gfMul_zero_right]

include hb

theorem rowDot_xor (row : Row) (y z : Nat → Byte) :
    rowDot b row (fun j => y j ^^^ z j) = rowDot b row y ^^^ rowDot b row z := by
  simp only [rowDot, gfMul_xor hb, xorAll_map_xor]

/-- Back substitution gives a nonzero vector that every row sends to 0. -/
theorem DependentColumn.exists_null {n p : Nat} {a : List Row} (h : DependentColumn n p a) :
    ∃ v : Nat → Byte, v p = 1 ∧ ∀ r < n, rowDot b (a.getD r []) v = 0 := by
  have hfrom : ∀ q ≤ p, ∃ v : Nat → Byte, v p = 1 ∧ ∀ r < n, q ≤ r → rowDot b (a.getD r []) v = 0 := by
    intro q hq
    induction hq using Nat.decreasingInduction with
    | self =>
      refine ⟨fun j => if j = p then 1 else 0, if_pos rfl, fun r hr hpr => ?_⟩
      rw [rowDot_single, show (a.getD r []).getD p 0 = 0 from h.zero r hr p le_rfl (.inr hpr), gfMul_zero_left]
    | of_succ q hq ih =>
      obtain ⟨v, hvp, hv⟩ := ih
      refine ⟨fun j => v j ^^^ if j = q then gfDiv b (rowDot b (a.getD q []) v) (entryOf a q q) else 0, ?_,
        fun r hr hqr => ?_⟩
      · simp only [hvp, if_neg (show p ≠ q by omega)]
        rfl
      · rw [rowDot_xor hb, rowDot_single]
        obtain rfl | hlt := Nat.eq_or_lt_of_le hqr
        · rw [gfMul_comm hb, ← entryOf, gfDiv_gfMul_self hb _ (h.diag q hq)]
          exact BitVec.xor_self
        · rw [hv r hr hlt, show (a.getD r []).getD q 0 = 0 from h.zero r hr q (by omega) (.inl hlt), gfMul_zero_left]
          rfl
  obtain ⟨v, hvp, hv⟩ := hfrom 0 p.zero_le
  exact ⟨v, hvp, fun r hr => hv r hr r.zero_le⟩

end

/-! ### Singular states -/

/-- A nonzero vector of the columns is sent to 0 by all rows: it solves the system in byte t, where symbols of t bytes are 0. -/
def Solver.Singular (b : Build) (n l t : Nat) (st : Solver) : Prop :=
  ∃ y : Nat → Byte, (∃ c < l, y c ≠ 0) ∧ st.Solves b n y t

section
variable {b : Build} {n l t : Nat} {st st' : Solver}

theorem Solver.Follows.singular (h : st.Follows b n l t st') (hsing : st'.Singular b n l t) : st.Singular b n l t := by
  obtain ⟨y, hy, hsol⟩ := hsing
  exact ⟨y, hy, (h.solves y t).1 hsol⟩

/-- A state with a dependent column is singular; the column's label names the symbol that is free. -/
theorem Solver.Sized.singular (hb : BuildOk b) (hs : st.Sized n l t) {p : Nat} (hp : p < l)
    (h : DependentColumn n p st.a) : st.Singular b n l t := by
  obtain ⟨v, hvp, hv⟩ := h.exists_null hb
  have hlen := hs.length_permC
  have hnodup : st.permC.Nodup := hs.cols.nodup_iff.2 List.nodup_range
  have hplace {j : Nat} (hj : j < l) : st.permC.idxOf (st.permC.getD j 0) = j := by
    rw [List.getD_eq_getElem _ _ (hlen.symm ▸ hj)]
    exact hnodup.idxOf_getElem j _
  refine ⟨fun c => v (st.permC.idxOf c), ⟨st.permC.getD p 0, ?_, ?_⟩, fun r hr => ?_⟩
  · rw [List.getD_eq_getElem _ _ (hlen.symm ▸ hp), ← List.mem_range, ← hs.cols.mem_iff]
    exact List.getElem_mem _
  · simp only [hplace hp, hvp]
    decide
  · rw [residual, rowDot_congr (z := v) fun j hj => by rw [hplace (hs.lengthA r hr ▸ hj)], hv r hr,
      List.getD_eq_default _ _ (hs.length_rhs hr).le]
    rfl

/-! ### Failures of phase 1 and phase 2 (R231, R232) -/

/-- Where phase 1 finds no row, column i of the window depends on those before it. -/
theorem dependentColumn_of_chooseRow {m : SolveDims} {i hi : Nat} (hs : st.Sized n l t) (h : Phase1Shape n i hi st)
    (hih : i < hi) (hnone : chooseRow m st i hi = none) : DependentColumn n i st.a := by
  refine ⟨h.diag, fun r hr c hc hcr => ?_⟩
  by_cases hri : r < i
  · exact h.zero r hri c (by omega) (by omega)
  · obtain hci | rfl := Nat.lt_or_eq_of_le hc
    · exact h.below r (by omega) hr c hci
    · by_contra hne
      have hcol : c ∈ nonzeroCols (st.a.getD r []) c hi := mem_nonzeroCols.2 ⟨⟨le_rfl, hih⟩, hne⟩
      exact chooseRow_eq_none.1 hnone r _
        ⟨by omega, by rwa [hs.rowsA], List.length_pos_of_mem hcol, Iff.rfl⟩

/-- Where phase 2 finds no pivot, its column depends on those before it. -/
theorem Phase2Shape.dependentColumn {i k : Nat} (h : Phase2Shape n i k st) (hik : i ≤ k) (hkn : k ≤ n)
    (hnone : ∀ r, k ≤ r → r < n → entryOf st.a r k = 0) : DependentColumn n k st.a := by
  refine ⟨fun r hr => ?_, fun r hr c hc hcr => ?_⟩
  · by_cases hri : r < i
    · exact h.diag r hri
    · rw [h.unit r (Nat.le_of_not_lt hri) (by omega) r hr, if_pos rfl]
      decide
  · by_cases hri : r < i
    · exact h.zero r hri c (by omega) (by omega)
    · obtain hck | rfl := Nat.lt_or_eq_of_le hc
      · rw [h.unit r (Nat.le_of_not_lt hri) hr c hck, if_neg (by omega)]
      · exact hnone r (by omega) hr

end

section
variable {b : Build} (hb : BuildOk b)
include hb

/-- Phase 1 fails on singular systems only. -/
theorem singular_of_phase1 {m : SolveDims} {n t fuel i u : Nat} {st : Solver} (hs : st.Sized n m.l t) (hle : i + u ≤ m.l)
    (h : Phase1Shape n i (m.l - u) st) (hp : phase1 b m fuel st i u = none) : st.Singular b n m.l t := by
  induction fuel generalizing st i u with
  | zero => cases hp
  | succ fuel ih =>
    rw [phase1] at hp
    split at hp
    · cases hp
    split at hp
    · rename_i hnone
      exact hs.singular hb (by omega) (dependentColumn_of_chooseRow hs h (by omega) hnone)
    · rename_i k r hchoose
      obtain ⟨hfollows, hr1, hr, hshape⟩ := phase1_step hb hs h (by omega) (Nat.sub_le _ _) hchoose
      rw [show m.l - u - r + 1 = m.l - (u + r - 1) by omega] at hshape
      exact hfollows.singular (ih hfollows.sized (by omega) hshape hp)

/-- One pass of phase 2 leads to the next shape. -/
theorem phase2_step {n l t i k p : Nat} {st : Solver} (hs : st.Sized n l t) (h : Phase2Shape n i k st) (hik : i ≤ k)
    (hkp : k ≤ p) (hpn : p < n) (hne : entryOf st.a p k ≠ 0) :
    let st' := clearColumn b i k (Solver.normalizeRow b { st with a := swapAt st.a k p, rowD := swapAt st.rowD k p } k)
    st.Follows b n l t st' ∧ Phase2Shape n i (k + 1) st' := by
  have hk : k < n := hkp.trans_lt hpn
  have hswap := hs.swapLabels_follows (b := b) hk hpn hs.rowsX hs.lengthX
  have hpivot : entryOf (swapAt st.a k p) k k ≠ 0 := by
    rwa [show entryOf (swapAt st.a k p) k k = _ from (hs.entryOf_swapRows hk hpn k k).1, Equiv.swap_apply_left]
  have hdivide := hswap.sized.divide_follows hb hk hpivot
  have hone := (hswap.sized.entryOf_normalizeRow (b := b) hk k k).trans ((if_pos rfl).trans (gfDiv_self hb hpivot))
  obtain ⟨hadd, hcol⟩ := clearColumn_spec hb (i := i) hdivide.sized hk hone
  exact ⟨(hswap.trans hdivide).trans hadd.follows,
    ((h.swapLabels hs hik hkp hpn).normalizeRow hswap.sized hik hk).clearColumn hik hk hone hadd hcol⟩

/-- Phase 2 fails on singular systems only. -/
theorem singular_of_phase2 {n l t i count k : Nat} {st : Solver} (hs : st.Sized n l t) (hln : l ≤ n)
    (h : Phase2Shape n i k st) (hik : i ≤ k) (hkl : k + count ≤ l) (hp : phase2 b i (List.range' k count) st = none) :
    st.Singular b n l t := by
  induction count generalizing k st with
  | zero => cases hp
  | succ count ih =>
    rw [List.range'_succ, phase2, hs.rowsA] at hp
    split at hp
    · rename_i hnone
      refine hs.singular hb (by omega) (h.dependentColumn hik (by omega) fun r hkr hr => ?_)
      by_contra hne
      exact List.find?_eq_none.1 hnone r (List.mem_range'_1.2 (by omega)) (bne_iff_ne.2 hne)
    · rename_i p hsome
      have hne : entryOf st.a p k ≠ 0 := bne_iff_ne.1 (List.find?_some hsome :)
      have hmem := List.mem_range'_1.1 (List.mem_of_find?_eq_some hsome)
      obtain ⟨hfollows, hshape⟩ := phase2_step hb hs h hik hmem.1 (by omega) hne
      exact hfollows.singular (ih hfollows.sized hshape (by omega) (by omega) hp)

end

/-! ### The system itself (R241, R242) -/

section
variable {b : Build} {m : SolveDims} {a : List Row} {d : List Symbol}

theorem init_singular_iff (h : Shaped m a d) : (Solver.init m.l a d).Singular b a.length m.l m.t ↔
    ∃ x : List Byte, x.length = m.l ∧ (∃ j < m.l, x.getD j 0 ≠ 0) ∧ ∀ row ∈ a, dot b row x = 0 := by
  have hs := init_sized h
  have hnull (y : Nat → Byte) : (Solver.init m.l a d).Solves b a.length y m.t ↔
      ∀ r < a.length, rowDot b (a.getD r []) y = 0 := by
    rw [init_solves h]
    refine forall₂_congr fun r hr => ?_
    rw [List.getD_eq_default (d.getD r []) 0 (hs.lengthD r hr).le]
  constructor
  · rintro ⟨y, ⟨c, hc, hyc⟩, hsol⟩
    have hget {j : Nat} (hj : j < m.l) : ((List.range m.l).map y).getD j 0 = y j := getD_map_range y 0 hj
    refine ⟨(List.range m.l).map y, by simp, ⟨c, hc, by rwa [hget hc]⟩, fun row hrow => ?_⟩
    obtain ⟨r, hr, rfl⟩ := List.getElem_of_mem hrow
    rw [dot_eq_rowDot, rowDot_congr (z := y) fun j hj => hget (h.2.2.2.1 _ hrow ▸ hj), ← List.getD_eq_getElem a [] hr]
    exact (hnull y).1 hsol r hr
  · rintro ⟨x, -, ⟨j, hj, hxj⟩, hx⟩
    refine ⟨fun j => x.getD j 0, ⟨j, hj, hxj⟩, (hnull _).2 fun r hr => ?_⟩
    rw [List.getD_eq_getElem _ _ hr]
    exact hx _ (List.getElem_mem hr)

variable (hb : BuildOk b) (h : Shaped m a d)
include hb h

theorem singular_of_solve_error {c : FailCode} (hfail : solve b m a d = .error c) :
    (Solver.init m.l a d).Singular b a.length m.l m.t := by
  obtain ⟨-, hln, hp, -, -⟩ := id h
  have hs := init_sized h
  unfold solve at hfail
  split at hfail
  · rename_i hphase1
    exact singular_of_phase1 hb hs (by omega) (.init a.length m.l (m.l - m.p) a d) hphase1
  rename_i st i hphase1
  obtain ⟨hfollows, hil, hshape⟩ := phase1_spec hb hs (by omega) (.init a.length m.l (m.l - m.p) a d) hphase1
  split at hfail
  · rename_i hphase2
    exact hfollows.singular (singular_of_phase2 hb hfollows.sized hln (.start hshape) le_rfl (by omega) hphase2)
  · cases hfail

/-- A solve of a singular system does not succeed: in byte t its answer is 0, and every solution is this answer. -/
theorem not_singular_of_solve_ok {out : List (Nat × Symbol)} (hout : solve b m a d = .ok out) :
    ¬(Solver.init m.l a d).Singular b a.length m.l m.t := by
  rintro ⟨y, ⟨c, hc, hyc⟩, hsol⟩
  obtain ⟨hperm, hlen, hspec⟩ := solve_spec hb h hout
  obtain ⟨q, hq, rfl⟩ := List.mem_map.1 (hperm.mem_iff.2 (List.mem_range.2 hc))
  have hvalue := (hspec y m.t).1 ((init_solves h y m.t).1 hsol) q hq
  rw [List.getD_eq_default _ _ (hlen q hq).le] at hvalue
  exact hyc hvalue.symm

end

/-- Settles O53: a failure leaves a dependent column behind; a success leaves no null vector. -/
theorem solverFailsExactlyWhenSingular : Obligations.SolverFailsExactlyWhenSingular := by
  unfold Obligations.SolverFailsExactlyWhenSingular
  intro b m a d hb h
  rw [← init_singular_iff h]
  constructor
  · rintro (hfail | hfail) <;> exact singular_of_solve_error hb h hfail
  · intro hsing
    cases hsol : solve b m a d with
    | error c => simpa using solve_error hsol
    | ok out => exact absurd hsing (not_singular_of_solve_ok hb h hsol)

/-! ### The answer of a successful solve (R236, R241) -/

section
variable {l t : Nat} {c : List Symbol}

theorem getD_map_getD (vs : List Symbol) (k n : Nat) :
    (vs.map fun v => v.getD k 0).getD n 0 = (vs.getD n []).getD k 0 :=
  List.getD_map vs [] fun v => v.getD k 0

theorem length_getD_of_symbols (h : Symbols l t c) {n : Nat} (hn : n < l) : (c.getD n []).length = t := by
  obtain ⟨hcount, hlen⟩ := h
  rw [List.getD_eq_getElem _ _ (hcount ▸ hn)]
  exact hlen _ (List.getElem_mem _)

/-- Symbols that list every row once are the entries of one list of symbols. -/
theorem exists_symbols {out : List (Nat × Symbol)} (hperm : (out.map Prod.fst).Perm (List.range l))
    (hlen : ∀ q ∈ out, q.2.length = t) : ∃ c, Symbols l t c ∧ ∀ q ∈ out, q.2 = c.getD q.1 [] := by
  have hrow (n : Nat) : ∃ v, n < l → (n, v) ∈ out := by
    by_cases hn : n < l
    · obtain ⟨q, hq, rfl⟩ := List.mem_map.1 (hperm.mem_iff.2 (List.mem_range.2 hn))
      exact ⟨q.2, fun _ => hq⟩
    · exact ⟨[], fun h => absurd h hn⟩
  choose f hf using hrow
  refine ⟨(List.range l).map f, ⟨by simp, fun v hv => ?_⟩, fun q hq => ?_⟩
  · obtain ⟨n, hn, rfl⟩ := List.mem_map.1 hv
    exact hlen _ (hf n (List.mem_range.1 hn))
  · have hn : q.1 < l := List.mem_range.1 (hperm.mem_iff.1 (List.mem_map_of_mem hq))
    rw [getD_map_range f [] hn]
    exact congrArg Prod.snd (List.inj_on_of_nodup_map (hperm.nodup_iff.2 List.nodup_range) hq (hf q.1 hn) rfl)

end

/-- Settles O52: a solution has the answered symbols byte by byte; of a square system the answered symbols are a solution. -/
theorem solverIsRight : Obligations.SolverIsRight := by
  unfold Obligations.SolverIsRight
  constructor
  · intro b m a d c out hb h hc hsol hout
    obtain ⟨hperm, hlen, hspec⟩ := solve_spec hb h hout
    refine ⟨hperm, fun q hq => ?_⟩
    have hn : q.1 < m.l := List.mem_range.1 (hperm.mem_iff.1 (List.mem_map_of_mem hq))
    refine eq_of_getD ((hlen q hq).trans (length_getD_of_symbols hc hn).symm) fun k hk => ?_
    rw [(hspec (fun n => (c.map fun v => v.getD k 0).getD n 0) k).1 (fun r hr => hsol r hr k (hlen q hq ▸ hk)) q hq]
    exact getD_map_getD c k q.1
  · intro b m a d out hb h hsquare hout
    obtain ⟨hperm, hlen, hspec⟩ := solve_spec hb h hout
    obtain ⟨c, hc, hmem⟩ := exists_symbols hperm hlen
    refine ⟨c, hc, fun r hr k hk => ?_, hperm, hmem⟩
    refine (hspec (fun n => (c.map fun v => v.getD k 0).getD n 0) k).2 hsquare (fun q hq => ?_) r hr
    rw [getD_map_getD, ← hmem q hq]

end Sys2Proof.Machine
end

section
/-! PROOFS. Column placement for any matrix (spec/44_pi_solver.md R228): one permutation of the window's columns sorts row i. -/

namespace Sys2Proof.Machine
open Sys2Proof.Claims

/-! ### Exchanges of the window's columns -/

/-- What exchanges of columns of the window [i, hi) make of any matrix (`Solver.PlacedFrom` speaks of whole solver states only):
its rows of n columns and the column labels went through one permutation, row i has as many nonzeros in the window, and
nothing else changed. -/
structure Solver.ColumnsMoved (n i hi : Nat) (st st' : Solver) : Prop where
  lengthA : ∀ r < st'.a.length, (st'.a.getD r []).length = n
  lengthX : ∀ r < st'.x.length, (st'.x.getD r []).length = n
  lengthC : st'.permC.length = n
  d : st'.d = st.d
  rowD : st'.rowD = st.rowD
  count : (windowSupport (st'.a.getD i []) i hi).card = (windowSupport (st.a.getD i []) i hi).card
  moved : ∃ f : Equiv.Perm Nat, (∀ j, (j < i ∨ hi ≤ j) → f j = j) ∧
    (∀ k j, entryOf st'.a k j = entryOf st.a k (f j) ∧ entryOf st'.x k j = entryOf st.x k (f j)) ∧
    ∀ j, st'.permC.getD j 0 = st.permC.getD (f j) 0

namespace Solver.ColumnsMoved

variable {n i hi : Nat} {st st' : Solver}

theorem refl (ha : ∀ row ∈ st.a, row.length = n) (hx : ∀ row ∈ st.x, row.length = n) (hc : st.permC.length = n) :
    ColumnsMoved n i hi st st := by
  have hlen {rows : List Row} (h : ∀ row ∈ rows, row.length = n) (r : Nat) (hr : r < rows.length) :
      (rows.getD r []).length = n := by
    rw [List.getD_eq_getElem _ _ hr]
    exact h _ (List.getElem_mem hr)
  exact ⟨hlen ha, hlen hx, hc, rfl, rfl, rfl, 1, fun _ _ => rfl, fun _ _ => ⟨rfl, rfl⟩, fun _ => rfl⟩

variable (h : ColumnsMoved n i hi st st') (hhi : hi ≤ n) {j1 j2 : Nat} (h1 : i ≤ j1 ∧ j1 < hi) (h2 : i ≤ j2 ∧ j2 < hi)
include h hhi h1 h2

theorem entryOf_swapCols (k c : Nat) : entryOf (st'.swapCols j1 j2).a k c = entryOf st'.a k (Equiv.swap j1 j2 c) ∧
    entryOf (st'.swapCols j1 j2).x k c = entryOf st'.x k (Equiv.swap j1 j2 c) :=
  ⟨entryOf_map_swapAt h.lengthA (h1.2.trans_le hhi) (h2.2.trans_le hhi) k c,
    entryOf_map_swapAt h.lengthX (h1.2.trans_le hhi) (h2.2.trans_le hhi) k c⟩

theorem swapCols : ColumnsMoved n i hi st (st'.swapCols j1 j2) := by
  obtain ⟨f, hfix, hrows, hcols⟩ := h.moved
  have hn1 : j1 < n := h1.2.trans_le hhi
  have hn2 : j2 < n := h2.2.trans_le hhi
  have hentry := h.entryOf_swapCols hhi h1 h2
  have hlen {rows : List Row} (hrows : ∀ r < rows.length, (rows.getD r []).length = n) (r : Nat)
      (hr : r < (rows.map fun row => swapAt row j1 j2).length) :
      ((rows.map fun row => swapAt row j1 j2).getD r []).length = n := by
    have hrow := hrows r (by rwa [List.length_map] at hr)
    rw [getD_map_swapAt, (swapAt_perm (hrow.symm ▸ hn1) (hrow.symm ▸ hn2)).length_eq, hrow]
  have hlenC : j1 < st'.permC.length ∧ j2 < st'.permC.length := by rw [h.lengthC]; exact ⟨hn1, hn2⟩
  refine ⟨hlen h.lengthA, hlen h.lengthX, (swapAt_perm hlenC.1 hlenC.2).length_eq.trans h.lengthC, h.d, h.rowD, ?_,
    (Equiv.swap j1 j2).trans f, fun j hj => ?_, fun k j => ?_, fun j => ?_⟩
  · rw [← h.count]
    exact card_windowSupport_swap h1 h2 fun c => (hentry i c).1
  · rw [Equiv.trans_apply, swap_of_notMem_window h1 h2 hj, hfix j hj]
  · rw [(hentry k j).1, (hentry k j).2]
    exact hrows k _
  · exact (getD_swapAt hlenC.1 hlenC.2 j 0).trans (hcols _)

end Solver.ColumnsMoved

/-! ### The sorted row -/

/-- A row with a nonzero in column i that is sorted behind it is nonzero at the right end, as far as its count reaches. -/
theorem SplitRow.nonzero_of_ge {row : Row} {i hi p : Nat} (h : SplitRow row i hi p) {c : Nat}
    (hc : hi - (windowSupport row i hi).card + 1 ≤ c) (hch : c < hi) : row.getD c 0 ≠ 0 := by
  intro hzero
  have hcp : c < p := Nat.lt_of_not_le fun hpc => h.nonzero c hpc hch hzero
  have hsub : windowSupport row i hi ⊆ insert i (Finset.Ico (c + 1) hi) := by
    intro j hj
    obtain ⟨⟨hij, hjh⟩, hne⟩ := mem_windowSupport.1 hj
    rw [Finset.mem_insert, Finset.mem_Ico]
    by_contra hout
    exact hne (h.zero j (by omega) (by omega))
  have hcard := (Finset.card_le_card hsub).trans (Finset.card_insert_le _ _)
  rw [Nat.card_Ico] at hcard
  omega

section
variable {n i hi : Nat} {st st' : Solver}

/-- The two pointers sort row i of any matrix with rows of n columns. -/
theorem placeRest_moves {fuel left right : Nat} (h : st.ColumnsMoved n i hi st') (hhi : hi ≤ n)
    (hfuel : right ≤ left + fuel) (hp : Pointers (st'.a.getD i []) i hi left right) :
    st.ColumnsMoved n i hi (placeRest i fuel st' left right) ∧ entryOf (placeRest i fuel st' left right).a i i ≠ 0 ∧
      ∃ p, SplitRow ((placeRest i fuel st' left right).a.getD i []) i hi p := by
  induction fuel generalizing st' left right with
  | zero => exact ⟨h, hp.pivot, hp.split hfuel⟩
  | succ fuel ih =>
    rw [placeRest]
    split
    · exact ⟨h, hp.pivot, hp.split ‹_›⟩
    split
    · exact ih h (by omega) (hp.left_zero ‹_›)
    split
    · exact ih h (by omega) (hp.right_nonzero ‹_›)
    · rename_i hmeet hl hr
      have hleft : i ≤ left ∧ left < hi := ⟨hp.left_gt.le, by have := hp.right_lt; omega⟩
      have hright : i ≤ right ∧ right < hi := ⟨by omega, hp.right_lt⟩
      exact ih (h.swapCols hhi hleft hright) (by omega) (hp.exchange (by omega) hl (not_not.1 hr)
        fun c => (h.entryOf_swapCols hhi hleft hright i c).1)

theorem placeColumns_moves (h : st.ColumnsMoved n i hi st) (hih : i < hi) (hhi : hi ≤ n)
    (hcount : 1 ≤ (windowSupport (st.a.getD i []) i hi).card) :
    st.ColumnsMoved n i hi (placeColumns st i hi) ∧ entryOf (placeColumns st i hi).a i i ≠ 0 ∧
      ∃ p, SplitRow ((placeColumns st i hi).a.getD i []) i hi p := by
  have hrest {st1 : Solver} (h1 : st.ColumnsMoved n i hi st1) (hpivot : entryOf st1.a i i ≠ 0) :=
    placeRest_moves (fuel := hi - i) (left := i + 1) (right := hi - 1) h1 hhi (by omega)
      ⟨Nat.lt_succ_self i, by omega, hpivot, fun c _ _ => by omega, fun c _ _ => by omega⟩
  obtain ⟨j, hj⟩ := Finset.card_pos.1 hcount
  obtain ⟨⟨hij, hjh⟩, hne⟩ := mem_windowSupport.1 hj
  rw [placeColumns]
  split
  · rename_i hnone
    exact absurd (bne_iff_ne.2 hne) (List.find?_eq_none.1 hnone j (List.mem_range'_1.2 (by omega)))
  · rename_i j1 hsome
    have hne1 : entryOf st.a i j1 ≠ 0 := bne_iff_ne.1 (List.find?_some hsome :)
    have hmem := List.mem_range'_1.1 (List.mem_of_find?_eq_some hsome)
    split
    · rename_i heq
      exact hrest h (heq ▸ hne1)
    · have hwindow : i ≤ j1 ∧ j1 < hi := by omega
      refine hrest (h.swapCols hhi ⟨le_rfl, hih⟩ hwindow) ?_
      rwa [(h.entryOf_swapCols hhi ⟨le_rfl, hih⟩ hwindow i i).1, Equiv.swap_apply_left]

end

/-- Settles O51. -/
theorem columnPlacement : Obligations.ColumnPlacement := by
  unfold Obligations.ColumnPlacement
  intro st i hi n hih hhi _ ha hx hc hcount
  rw [nzOf_eq_length, ← card_windowSupport] at hcount ⊢
  obtain ⟨hmoved, hpivot, p, hsplit⟩ := placeColumns_moves (.refl ha hx hc) hih hhi hcount
  exact ⟨hpivot, fun j hj hlt => hsplit.zero_of_lt hih hpivot hj (hmoved.count ▸ hlt),
    fun j hj hlt => hsplit.nonzero_of_ge (hmoved.count ▸ hj) hlt, hmoved.d, hmoved.rowD, hmoved.moved⟩

end Sys2Proof.Machine
end

section
/-! PROOFS. PI_SOLVE and failed solves (spec/44_pi_solver.md R240, R245, R246): the system that is read, the state that a solve
ends in, and that a failing command loses no bank byte but the scratch of its solve. -/

namespace Sys2Proof.Machine
open Sys2Proof.Claims

/-! ### The system that is read -/

section
variable {s : State}

theorem State.readSymRows_of_valued {r : Region} {rows : List Nat}
    (h : ∀ row ∈ rows, Valued s.mem (symRow s.build r row) (tOf s)) :
    s.readSymRows r rows = some (rows.map fun row => symbolAt s.mem (symRow s.build r row) (tOf s)) := by
  induction rows with
  | nil => rfl
  | cons row rows ih =>
    obtain ⟨hrow, hrows⟩ := List.forall_mem_cons.1 h
    rw [State.readSymRows, State.readSymRow, State.readSymbol_of_valued hrow, ih hrows]
    rfl

theorem State.readMatrix_of_valued {row n : Nat} (h : ∀ r, row ≤ r → r < row + n → Valued s.mem (aRow s r) (lOf s)) :
    s.readMatrix row n = some ((List.range' row n).map fun r => symbolAt s.mem (aRow s r) (lOf s)) := by
  induction n generalizing row with
  | zero => rfl
  | succ n ih =>
    have hfirst : s.mem.readBytes (matRow s.build .matA row) s.cfg.l.toNat = some (symbolAt s.mem (aRow s row) (lOf s)) :=
      Memory.readBytes_of_valued (h row le_rfl (by omega))
    rw [State.readMatrix, hfirst, ih fun r hr hlt => h r (by omega) (by omega)]
    rfl

/-- With its operands in range and valued, PI_SOLVE solves the system of MAT_A and SYM_D (R240). -/
theorem exec_piSolve (hv : s.status.cfgValid = true) (hl : lOf s ≤ argn s 0) (hm : argn s 0 ≤ mMaxOf s.build)
    (h : ∀ r < argn s 0, Valued s.mem (aRow s r) (lOf s) ∧ Valued s.mem (dRow s r) (tOf s)) :
    exec .piSolve s =
      solveThen (s.beginSolve (argn s 0)) (argn s 0) (matrixOf s (argn s 0)) (rhsOf s (argn s 0)) finish := by
  have hmatrix : s.readMatrix 0 (s.arg 0) = some (matrixOf s (argn s 0)) := by
    rw [matrixOf, List.range_eq_range']
    exact State.readMatrix_of_valued fun r _ hr => (h r (by rwa [Nat.zero_add] at hr)).1
  have hrhs : s.readSymRows .symD (List.range (s.arg 0)) = some (rhsOf s (argn s 0)) :=
    State.readSymRows_of_valued fun r hr => (h r (List.mem_range.1 hr)).2
  have hrange : ¬(s.arg 0 < s.cfg.l.toNat ∨ s.build.mMax < s.arg 0) :=
    not_or.2 ⟨Nat.not_lt_of_le hl, Nat.not_lt_of_le hm⟩
  show execPiSolve s = _
  rw [execPiSolve, needConfig_of_valid hv, if_neg hrange, hmatrix, orNoValue_some, hrhs, orNoValue_some]
  rfl

theorem exec_piSolve_range (hv : s.status.cfgValid = true) (h : argn s 0 < lOf s ∨ mMaxOf s.build < argn s 0) :
    exec .piSolve s = .next (failState s 0x04) := by
  show execPiSolve s = _
  rw [execPiSolve, needConfig_of_valid hv]
  exact if_pos h

theorem matrixOf_shaped (hs : MachineOk s) (hv : s.status.cfgValid = true) {n : Nat} (hn : lOf s ≤ n) :
    Shaped (dimsOf s) (matrixOf s n) (rhsOf s n) := by
  obtain ⟨hl, hwp, -⟩ := blockParameterLaws s hs hv
  refine ⟨by simp [matrixOf, rhsOf], by simpa [matrixOf, dimsOf] using hn, ?_, fun row hrow => ?_, fun v hvd => ?_⟩
  · show s.cfg.p.toNat ≤ s.cfg.l.toNat
    omega
  · obtain ⟨r, -, rfl⟩ := List.mem_map.1 hrow
    simp [symbolAt, dimsOf]
  · obtain ⟨r, -, rfl⟩ := List.mem_map.1 hvd
    simp [symbolAt, dimsOf]

/-! ### The state that a solve ends in (R240, R245, R246) -/

theorem solveThen_of_ok {n : Nat} {a : List Row} {d : List Symbol} {out : List (Nat × Symbol)}
    (h : solve s.build (dimsOf s) a d = .ok out) (k : State → Out) :
    solveThen (s.beginSolve n) n a d k = k ((s.beginSolve n).endSolve n out) := by
  have hsol : solve (s.beginSolve n).build (s.beginSolve n).solveDims a d = .ok out := h
  rw [solveThen, hsol]

theorem solveThen_of_error {n : Nat} {a : List Row} {d : List Symbol} {c : FailCode}
    (h : solve s.build (dimsOf s) a d = .error c) (k : State → Out) :
    solveThen (s.beginSolve n) n a d k = .next (((s.beginSolve n).clearScratch n).raiseFail c) := by
  have hsol : solve (s.beginSolve n).build (s.beginSolve n).solveDims a d = .error c := h
  rw [solveThen, hsol]
  rfl

theorem complete_endSolve (s : State) (n : Nat) (out : List (Nat × Symbol)) :
    ((s.beginSolve n).endSolve n out).complete =
      { s with
        mem := ((s.beginSolve n).endSolve n out).mem
        hostCopy := s.hostCopy.clear (s.inScratch n)
        mRows := word n
        status := { doneStatus s.status with cValid := true } } := by
  rw [State.endSolve, State.writeSymRows_eq_setMem]
  rfl

theorem raiseFail_clearScratch (s : State) (n : Nat) (c : FailCode) :
    ((s.beginSolve n).clearScratch n).raiseFail c =
      { s with
        mem := s.mem.clear (s.inScratch n)
        hostCopy := s.hostCopy.clear (s.inScratch n)
        mRows := word n
        status := failStatus { s.status with cValid := false } c.code } := rfl

theorem read_clear_inScratch (hs : BlockFits s.build s.cfg) (m : Memory) (n a : Nat) :
    (Scratch s n a → (m.clear (s.inScratch n)).read a = none) ∧
      (¬Scratch s n a → (m.clear (s.inScratch n)).read a = m.read a) := by
  rw [Memory.read_clear, ← State.inScratch_iff hs]
  exact ⟨fun hin => if_pos hin, fun hout => if_neg hout⟩

/-- SYM_C holds what the solver answered, the scratch nothing, and every other byte what it held. -/
theorem solvedInto_endSolve (hs : MachineOk s) (hv : s.status.cfgValid = true) {n : Nat} {a : List Row} {d : List Symbol}
    (hshape : Shaped (dimsOf s) a d) {out : List (Nat × Symbol)} (hout : solve s.build (dimsOf s) a d = .ok out) :
    SolvedInto s n out ((s.beginSolve n).endSolve n out).mem := by
  obtain ⟨hperm, hlen, -⟩ := solve_spec hs.build hshape hout
  have hfits := hs.blockFits hv
  rw [State.endSolve_mem]
  refine ⟨fun q hq k hk => ?_, fun x hx => ?_⟩
  · exact State.read_writeSymRows_row (s := (s.beginSolve n).clearScratch n) (r := .symC)
      (hperm.nodup_iff.2 List.nodup_range) (fun p hp => (hlen p hp).trans_le hfits.t) hq (hk.trans_eq (hlen q hq).symm)
  · rw [State.read_writeSymRows fun q hq => by rw [hlen q hq]; exact hx q hq]
    exact read_clear_inScratch hfits s.mem n x

end

/-- Settles O54. -/
theorem piSolveResult : Obligations.PiSolveResult := by
  unfold Obligations.PiSolveResult
  refine ⟨encodedN_of_decode fun w h => by rw [decode, h]; rfl, fun s => ⟨fun hv => needConfig_eq_failState hv _,
    exec_piSolve_range, fun hs hv hl hm hvalued => ?_⟩⟩
  have hrows : word (argn s 0) = s.args[0] := (BitVec.ofNat_toNat _ _).trans (BitVec.setWidth_eq _)
  have hcopy := read_clear_inScratch (hs.blockFits hv) s.hostCopy (argn s 0)
  rw [exec_piSolve hv hl hm hvalued, ← hrows]
  refine ⟨fun out hout => ⟨_, _, ?_, solvedInto_endSolve hs hv (matrixOf_shaped hs hv hl) hout, hcopy⟩,
    fun e he => ⟨_, _, ?_, read_clear_inScratch (hs.blockFits hv) s.mem (argn s 0), hcopy⟩⟩
  · rw [← complete_endSolve, solveThen_of_ok hout]
    rfl
  · rw [← raiseFail_clearScratch, solveThen_of_error he]

/-! ### Failing commands (R245, R246; 45_block_codec.md R280) -/

/-- The command ended in a failed solve of at most M_MAX rows. -/
def FailedSolve (s t : State) : Prop :=
  s.status.cfgValid = true ∧ ∃ n ≤ s.build.mMax, ∃ c, (c = .decodingFailurePh1 ∨ c = .decodingFailurePh2) ∧
    t = ((s.beginSolve n).clearScratch n).raiseFail c

section
variable {s t : State}

/-- A solve that does not go on failed. -/
theorem failedSolve_of_solveThen (hv : s.status.cfgValid = true) {n : Nat} (hn : n ≤ s.build.mMax) {a : List Row}
    {d : List Symbol} {k : State → Out} (h : solveThen (s.beginSolve n) n a d k = .next t)
    (hk : ∀ out, k ((s.beginSolve n).endSolve n out) ≠ .next t) : FailedSolve s t := by
  obtain ⟨c, hc, rfl⟩ | ⟨out, -, hgo⟩ := solveThen_next h
  · exact ⟨hv, n, hn, c, solve_error hc, rfl⟩
  · exact absurd hgo (hk out)

/-- A completion leaves ERR as it was. -/
theorem finish_ne_of_err {u : State} (hu : u.status.err = false) (ht : t.status.err = true) : finish u ≠ .next t := by
  intro h
  obtain rfl := finish_next h
  rw [State.complete_status, Status.complete_err, hu] at ht
  cases ht

section
variable (he : s.status.err = false) (ht : t.status.err = true)
include he ht

theorem execPiSolve_failed (h : execPiSolve s = .next t) : t.mem = s.mem ∨ FailedSolve s t := by
  obtain ⟨hv, h⟩ | ⟨-, rfl⟩ := needConfig_next h
  swap
  · exact .inl rfl
  split at h
  · obtain rfl := failWith_next h
    exact .inl rfl
  rename_i hrange
  obtain ⟨a, -, h⟩ := orNoValue_next h
  obtain ⟨d, -, h⟩ := orNoValue_next h
  exact .inr (failedSolve_of_solveThen hv (by omega) h fun out => finish_ne_of_err (by simpa using he) ht)

theorem decodeFull_failed (hv : s.status.cfgValid = true) {esis missing repairs : List Nat}
    {present : List (Nat × Symbol)} {rep : List Symbol} (hn : s.cfg.l.toNat + (repairs.length - missing.length) ≤ s.build.mMax)
    (h : decodeFull (s.setCValid false) esis missing repairs present rep = .next t) : FailedSolve s t := by
  unfold decodeFull at h
  dsimp only at h
  refine failedSolve_of_solveThen hv hn h fun out hgo => ?_
  obtain ⟨found, -, hgo⟩ := orNoValue_next hgo
  exact finish_ne_of_err (by simpa using he) ht hgo

variable (hs : MachineOk s)
include hs

theorem execBlkEncode_failed (h : execBlkEncode s = .next t) : t.mem = s.mem ∨ FailedSolve s t := by
  obtain ⟨hv, h⟩ | ⟨-, rfl⟩ := needConfig_next h
  swap
  · exact .inl rfl
  obtain ⟨src, -, h⟩ := orNoValue_next h
  exact .inr (failedSolve_of_solveThen hv ((hs.blockFits hv).l.trans (Nat.le_add_right _ _)) h
    fun out => finish_ne_of_err (by simpa using he) ht)

theorem execBlkDecode_failed (h : execBlkDecode s = .next t) : t.mem = s.mem ∨ FailedSolve s t := by
  obtain ⟨hv, h⟩ | ⟨-, rfl⟩ := needConfig_next h
  swap
  · exact .inl rfl
  split at h
  · obtain rfl := failWith_next h
    exact .inl rfl
  rename_i hn
  obtain ⟨esis, hesis, h⟩ := orNoValue_next h
  split at h
  · obtain rfl := failWith_next h
    exact .inl rfl
  dsimp only at h
  split at h
  · obtain ⟨rx, -, h⟩ := orNoValue_next h
    exact absurd h (finish_ne_of_err (by simpa using he) ht)
  split at h
  · obtain rfl := failWith_next h
    exact .inl rfl
  obtain ⟨rx, -, h⟩ := orNoValue_next h
  obtain ⟨rep, -, h⟩ := orNoValue_next h
  have hrepairs : (repairsOf s.cfg.k.toNat esis).length ≤ s.build.rxMax :=
    (length_repairsOf_le _ _).trans ((State.length_readEsis hesis).trans_le (Nat.le_of_not_lt hn))
  exact .inr (decodeFull_failed he ht hv (Nat.add_le_add (hs.blockFits hv).l ((Nat.sub_le _ _).trans hrepairs)) h)

/-- A command that fails changes the banks by a failed solve only. -/
theorem exec_failed {i : Instr} (h : exec i s = .next t) : t.mem = s.mem ∨ FailedSolve s t := by
  cases exec_end h with
  | refused _ _ | configRefused | insufficient => exact .inl rfl
  | solveFailed hi _ _ =>
    obtain rfl | rfl | rfl := hi
    · exact execPiSolve_failed he ht h
    · exact execBlkEncode_failed he ht hs h
    · exact execBlkDecode_failed he ht hs h
  | results _ _ | stored _ _ | built _ _ | configured _ | solved _ _ _ | received _ _ _ | decoded _ _ _ _ => simp [he] at ht

end

/-! ### The banks that a failed solve loses bytes of -/

/-- A byte of a row of a bank lies in the bank (20_memory.md R61). -/
theorem Region.holds_row {b : Build} {r : Region} {rows stride row k : Nat} (hsize : rows * stride ≤ r.size b)
    (hrow : row < rows) (hk : k < stride) : r.holds b (r.base + row * stride + k) 1 = true := by
  have hend := row_add_le hrow (Nat.succ_le_of_lt hk)
  rw [Region.holds_iff]
  omega

/-- Scratch that holds a value in a sound state lies in MAT_A or SYM_D: the other banks of the scratch are only CORE's. -/
theorem MachineOk.valued_scratch (hs : MachineOk s) (hv : s.status.cfgValid = true) {n a : Nat} (hn : n ≤ s.build.mMax)
    (h : Scratch s n a) (hvalue : s.mem.read a ≠ none) :
    (∃ r < mMaxOf s.build, ∃ c < lOf s, a = aRow s r + c) ∨ ∃ r < mMaxOf s.build, ∃ k < tOf s, a = dRow s r + k := by
  have hl := (hs.blockFits hv).l
  have hcore (r : Region) (hr : r.coreOnly = true) {rows stride row k : Nat} (hsize : rows * stride ≤ r.size s.build)
      (hrow : row < rows) (hk : k < stride) (ha : a = r.base + row * stride + k) : False :=
    hvalue (hs.read_eq_none hr (ha ▸ Region.holds_row hsize hrow hk))
  obtain ⟨r, hr, c, hc, rfl | rfl⟩ | ⟨r, hr, j, hj, rfl⟩ | ⟨r, hr, j, hj, rfl⟩ | ⟨r, hr, k, hk, rfl⟩ := h
  · exact .inl ⟨r, hr.trans_le hn, c, hc, rfl⟩
  · exact (hcore .matX rfl le_rfl (hr.trans_le hn) (Nat.lt_of_lt_of_le hc hl) rfl).elim
  · exact (hcore .rowD rfl (Nat.mul_comm _ _).le (hr.trans_le hn) hj (by rw [Nat.mul_comm r]; rfl)).elim
  · exact (hcore .permC rfl (Nat.mul_comm _ _).le (Nat.lt_of_lt_of_le hr hl) hj (by rw [Nat.mul_comm r]; rfl)).elim
  · exact .inr ⟨r, hr.trans_le hn, k, hk, rfl⟩

end

/-- Settles O24: only a failed solve changes the banks, and it only clears its scratch. -/
theorem failedCommandsKeepTheBanks : Obligations.FailedCommandsKeepTheBanks := by
  unfold Obligations.FailedCommandsKeepTheBanks
  intro i s t hs he h ht a hne
  obtain hsame | ⟨hv, n, hn, c, hc, rfl⟩ := exec_failed he ht hs h
  · exact absurd (by rw [hsame]) hne
  obtain ⟨hcleared, hkept⟩ := read_clear_inScratch (hs.blockFits hv) s.mem n a
  have hscratch : Scratch s n a := not_not.1 fun hout => hne (hkept hout)
  refine ⟨?_, hcleared hscratch, hs.valued_scratch hv hn hscratch fun hnone => hne ?_⟩
  · obtain rfl | rfl := hc
    · exact .inl rfl
    · exact .inr rfl
  · exact (hcleared hscratch).trans hnone.symm

end Sys2Proof.Machine
end

section
/-! PROOFS. BLK_ENCODE and BLK_SYMBOL (spec/45_block_codec.md R270 to R276): the encoding system that is solved, and the symbol
that is stored in SYM_OUT. -/

namespace Sys2Proof.Machine
open Sys2Proof.Claims

section
variable {s : State}

/-! ### BLK_ENCODE (R270, R274) -/

/-- The source symbols in SYM_SRC (R270). -/
def sourceOf (s : State) : List Symbol := (List.range (kOf s)).map fun e => symbolAt s.mem (srcRow s e) (tOf s)

theorem length_sourceOf (s : State) : (sourceOf s).length = kOf s := by simp [sourceOf]

theorem readSymRows_source (h : ∀ e < kOf s, Valued s.mem (srcRow s e) (tOf s)) :
    s.readSymRows .symSrc (List.range s.cfg.k.toNat) = some (sourceOf s) :=
  State.readSymRows_of_valued fun e he => h e (List.mem_range.1 he)

/-- A list is given by its entries. -/
theorem eq_map_range_of_getD {α : Type} {l : List α} {n : Nat} {f : Nat → α} (d : α) (hlen : l.length = n)
    (h : ∀ r < n, l.getD r d = f r) : l = (List.range n).map f := by
  refine List.ext_getElem (by simp [hlen]) fun r hr hr' => ?_
  rw [List.getElem_map, List.getElem_range, ← h r (hlen ▸ hr), List.getD_eq_getElem _ _ hr]

/-- The right-hand side as the model builds it is the one of the rule: the sizes of the block add up to L. -/
theorem encodeRhs_eq_encodeD (hfits : BlockFits s.build s.cfg) (hk : kOf s ≤ s.cfg.kp.toNat) {src : List Symbol}
    (hsrc : src.length = kOf s) : encodeRhs s.cfg src = encodeD s src := by
  have hrows : s.cfg.s.toNat + s.cfg.h.toNat + s.cfg.kp.toNat = lOf s := hfits.rows
  refine eq_map_range_of_getD [] ((length_encodeRhs hsrc hk).trans hrows) fun r hr => ?_
  by_cases hlow : r < s.cfg.s.toNat + s.cfg.h.toNat
  · rw [if_neg (by omega), encodeRhs, List.append_assoc, List.getD_append _ _ _ _ (by simpa using hlow),
      List.getD_replicate _ hlow]
    rfl
  · obtain ⟨x, rfl⟩ := Nat.exists_eq_add_of_le (Nat.le_of_not_lt hlow)
    have hx : s.cfg.s.toNat + s.cfg.h.toNat ≤ s.cfg.s.toNat + s.cfg.h.toNat + x ∧
        s.cfg.s.toNat + s.cfg.h.toNat + x < s.cfg.s.toNat + s.cfg.h.toNat + kOf s ↔ x < kOf s := by omega
    rw [getD_encodeRhs hsrc (by omega), Nat.add_sub_cancel_left]
    exact if_congr hx.symm rfl rfl

/-- With its source symbols valued, BLK_ENCODE solves the encoding system (R270, R274). -/
theorem exec_blkEncode (hv : s.status.cfgValid = true) (h : ∀ e < kOf s, Valued s.mem (srcRow s e) (tOf s)) :
    exec .blkEncode s = solveThen (s.beginSolve (lOf s)) (lOf s) (constraintMatrix s.build s.cfg)
      (encodeRhs s.cfg (sourceOf s)) finish := by
  show execBlkEncode s = _
  rw [execBlkEncode, needConfig_of_valid hv, readSymRows_source h, orNoValue_some]
  rfl

/-! ### BLK_SYMBOL (R271, R276) -/

theorem symRow_symOut (b : Build) : symRow b .symOut 0 = outRow := by simp [symRow, Region.base, outRow]

theorem blkSymbol_invalid (hv : s.status.cfgValid = true) (hesi : 2 ^ 24 ≤ argn s 0) :
    exec .blkSymbol s = .next (failState s 0x10) := by
  show execBlkSymbol s = _
  rw [execBlkSymbol, needConfig_of_valid hv]
  exact if_pos hesi

section
variable (hv : s.status.cfgValid = true) (hesi : argn s 0 < 2 ^ 24)
include hv hesi

/-- With a legal ESI: a source symbol is read from its row, another is encoded with its ISI while C_VALID = 1. -/
theorem exec_blkSymbol : exec .blkSymbol s =
    if argn s 0 < kOf s then
      orNoValue (s.readSymRow .symSrc (argn s 0)) fun v => finish (s.writeSymbol outRow v)
    else if s.status.cValid then
      orNoValue (s.enc (isiRule s (argn s 0))) fun v => finish (s.writeSymbol outRow v)
    else failWith s .notSolved := by
  show execBlkSymbol s = _
  rw [execBlkSymbol, needConfig_of_valid hv]
  simp only [State.writeSymRow, symRow_symOut]
  exact if_neg (Nat.not_le_of_lt hesi)

theorem blkSymbol_source_storesRow (hk : argn s 0 < kOf s) (h : Valued s.mem (srcRow s (argn s 0)) (tOf s)) :
    StoresRow .blkSymbol s outRow fun k => val s.mem (srcRow s (argn s 0) + k) := by
  apply StoresRow.of_finish
  have hsrc : s.readSymRow .symSrc (argn s 0) = _ := State.readSymbol_of_valued h
  rw [exec_blkSymbol hv hesi, if_pos hk, hsrc, orNoValue_some]
  rfl

theorem blkSymbol_notSolved (hk : kOf s ≤ argn s 0) (hc : s.status.cValid = false) :
    exec .blkSymbol s = .next (failState s 0x05) := by
  rw [exec_blkSymbol hv hesi, if_neg (Nat.not_lt_of_le hk), hc]
  rfl

theorem blkSymbol_repair_storesRow (hk : kOf s ≤ argn s 0) (hc : s.status.cValid = true)
    (h : ∀ n ∈ indicesOf s.build s.cfg (isiRule s (argn s 0)), Valued s.mem (cRow s n) (tOf s)) :
    StoresRow .blkSymbol s outRow fun k =>
      xorAll ((indicesOf s.build s.cfg (isiRule s (argn s 0))).map fun n => val s.mem (cRow s n + k)) := by
  apply StoresRow.of_finish
  rw [exec_blkSymbol hv hesi, if_neg (Nat.not_lt_of_le hk), if_pos hc, State.enc_of_valued h, orNoValue_some]

end

end

/-- Settles O55. -/
theorem blkEncodeResult : Obligations.BlkEncodeResult := by
  unfold Obligations.BlkEncodeResult
  refine ⟨encodedN_of_decode fun w h => by rw [decode, h]; rfl, fun s => ⟨fun hv => needConfig_eq_failState hv _,
    fun hs hv hvalued => ?_⟩⟩
  obtain ⟨-, -, -, -, -, -, -, -, -, -, -, -, -, -, hk, -⟩ := blockParameterLaws s hs hv
  have hfits := hs.blockFits hv
  have hsystem : encodeRhs s.cfg (sourceOf s) = encodeD s (sourceOf s) := encodeRhs_eq_encodeD hfits hk (length_sourceOf s)
  have hshape : Shaped (dimsOf s) (constraintMatrix s.build s.cfg) (encodeD s (sourceOf s)) :=
    hsystem ▸ encodingSystem_shaped hs hv (readSymRows_source hvalued)
  have hrows : word (lOf s) = s.cfg.l := (BitVec.ofNat_toNat _ _).trans (BitVec.setWidth_eq _)
  have hcopy := read_clear_inScratch hfits s.hostCopy (lOf s)
  rw [exec_blkEncode hv hvalued, hsystem, ← hrows]
  refine ⟨fun out hout => ⟨_, _, ?_, solvedInto_endSolve hs hv hshape hout, hcopy⟩,
    fun e he => ⟨_, _, ?_, read_clear_inScratch hfits s.mem (lOf s), hcopy⟩⟩
  · rw [← complete_endSolve]
    exact solveThen_of_ok hout finish
  · rw [← raiseFail_clearScratch]
    exact solveThen_of_error he finish

/-- Settles O57. -/
theorem blkSymbolResult : Obligations.BlkSymbolResult := by
  unfold Obligations.BlkSymbolResult
  exact ⟨encodedN_of_decode fun w h => by rw [decode, h]; rfl, fun s => ⟨fun hv => needConfig_eq_failState hv _,
    blkSymbol_invalid, blkSymbol_source_storesRow, blkSymbol_notSolved, blkSymbol_repair_storesRow⟩⟩

end Sys2Proof.Machine
end

section
/-! PROOFS. BLK_DECODE without a solve (spec/45_block_codec.md R280, R282): the received symbols, the failures before the solve, and
the fast path. -/

namespace Sys2Proof.Machine
open Sys2Proof.Claims

/-! ### The received symbols (R280) -/

section
variable {s : State} {n e q : Nat}

/-- What was received was received for the first time at some place. -/
theorem exists_isFirst (h : ∃ q < n, esiAt s q = e) : ∃ q, IsFirst s n e q := by
  classical
  obtain ⟨hlt, heq⟩ := Nat.find_spec h
  exact ⟨Nat.find h, hlt, heq, fun p hp hpe => Nat.find_min h hp ⟨hp.trans hlt, hpe⟩⟩

theorem mem_missingRule : e ∈ missingRule s n ↔ e < kOf s ∧ ∀ q < n, esiAt s q ≠ e := by
  simp [missingRule, received]

theorem mem_missingRule_or_isFirst (he : e < kOf s) : e ∈ missingRule s n ∨ ∃ q, IsFirst s n e q := by
  by_cases h : ∃ q < n, esiAt s q = e
  · exact .inr (exists_isFirst h)
  · exact .inl (mem_missingRule.2 ⟨he, fun q hq heq => h ⟨q, hq, heq⟩⟩)

theorem nodup_missingRule (s : State) (n : Nat) : (missingRule s n).Nodup := List.nodup_range.filter _

theorem lt_of_mem_repairsRule (h : q ∈ repairsRule s n) : q < n := List.mem_range.1 (List.mem_of_mem_filter h)

theorem kOf_le_of_mem_repairsRule (h : q ∈ repairsRule s n) : kOf s ≤ esiAt s q := by
  obtain ⟨-, hrepair⟩ := List.mem_filter.1 h
  exact of_decide_eq_true ((Bool.and_eq_true _ _).mp hrepair).1

/-- The received source symbols: their ESIs, and the places of SYM_RX where they stand first. -/
def receivedSlots (s : State) (n : Nat) : List (Nat × Nat) := presentRows s.cfg.k.toNat (esisOf s n)

theorem mem_receivedSlots : (e, q) ∈ receivedSlots s n ↔ e < kOf s ∧ IsFirst s n e q := by
  simp only [receivedSlots, presentRows, List.mem_filterMap, List.mem_range, Option.map_eq_some_iff, firstOf_esisOf,
    Prod.mk.injEq]
  constructor
  · rintro ⟨_, he, _, hq, rfl, rfl⟩
    exact ⟨he, hq⟩
  · rintro ⟨he, hq⟩
    exact ⟨e, he, q, hq, rfl, rfl⟩

/-- The ESIs of the received source symbols rise, so that each has one row. -/
theorem nodup_receivedSlots (s : State) (n : Nat) : ((receivedSlots s n).map Prod.fst).Nodup := by
  refine (List.pairwise_map.2 (List.pairwise_filterMap.2 (List.pairwise_lt_range.imp ?_))).imp Nat.ne_of_lt
  intro e e' hlt p hp p' hp'
  obtain ⟨_, -, rfl⟩ := Option.map_eq_some_iff.1 hp
  obtain ⟨_, -, rfl⟩ := Option.map_eq_some_iff.1 hp'
  exact hlt

/-- The symbol received at a place. -/
def rxSymbol (s : State) (q : Nat) : Symbol := symbolAt s.mem (rxRow s q) (tOf s)

theorem length_rxSymbol (s : State) (q : Nat) : (rxSymbol s q).length = tOf s := by simp [rxSymbol, symbolAt]

theorem getD_rxSymbol {k : Nat} (hk : k < tOf s) : (rxSymbol s q).getD k 0 = val s.mem (rxRow s q + k) := getD_map_range _ _ hk

/-- The received source symbols with their rows of SYM_SRC. -/
def presentSymbols (s : State) (n : Nat) : List (Nat × Symbol) := (receivedSlots s n).map fun p => (p.1, rxSymbol s p.2)

theorem mem_presentSymbols {p : Nat × Symbol} :
    p ∈ presentSymbols s n ↔ p.1 < kOf s ∧ ∃ q, IsFirst s n p.1 q ∧ p.2 = rxSymbol s q := by
  rw [presentSymbols, List.mem_map]
  constructor
  · rintro ⟨⟨e, q⟩, hmem, rfl⟩
    obtain ⟨he, hq⟩ := mem_receivedSlots.1 hmem
    exact ⟨he, q, hq, rfl⟩
  · rintro ⟨he, q, hq, hv⟩
    exact ⟨(p.1, q), mem_receivedSlots.2 ⟨he, hq⟩, Prod.ext rfl hv.symm⟩

theorem nodup_presentSymbols (s : State) (n : Nat) : ((presentSymbols s n).map Prod.fst).Nodup := by
  rw [presentSymbols, List.map_map]
  exact nodup_receivedSlots s n

/-- Reads of SYM_RX rows below n answer the received symbols. -/
theorem readSymRows_rx (h : ∀ q < n, Valued s.mem (rxRow s q) (tOf s)) {rows : List Nat} (hrows : ∀ q ∈ rows, q < n) :
    s.readSymRows .symRx rows = some (rows.map (rxSymbol s)) :=
  State.readSymRows_of_valued fun q hq => h q (hrows q hq)

theorem readSymRows_receivedSlots (h : ∀ q < n, Valued s.mem (rxRow s q) (tOf s)) :
    s.readSymRows .symRx ((receivedSlots s n).map Prod.snd) = some ((receivedSlots s n).map fun p => rxSymbol s p.2) := by
  refine (readSymRows_rx h fun q hq => ?_).trans (by rw [List.map_map]; rfl)
  obtain ⟨p, hp, rfl⟩ := List.mem_map.1 hq
  obtain ⟨-, hlt, -⟩ := mem_receivedSlots.1 hp
  exact hlt

end

/-! ### Rows stored in SYM_SRC -/

/-- Symbols of T bytes for different rows [0, K) of SYM_SRC. -/
structure SourceRows (s : State) (l : List (Nat × Symbol)) : Prop where
  nodup : (l.map Prod.fst).Nodup
  row_lt : ∀ q ∈ l, q.1 < kOf s
  length : ∀ q ∈ l, q.2.length = tOf s

section
variable {s u : State} {l : List (Nat × Symbol)} (h : SourceRows s l) (hb : u.build = s.build)
include h hb

theorem SourceRows.read_row (ht : tOf s ≤ s.build.tMax) {q : Nat × Symbol} (hq : q ∈ l) {k : Nat} (hk : k < tOf s) :
    (u.writeSymRows .symSrc l).mem.read (srcRow s q.1 + k) = some (q.2.getD k 0) := by
  have hread := State.read_writeSymRows_row (s := u) (r := .symSrc) h.nodup
    (fun p hp => (h.length p hp).trans_le (hb ▸ ht)) hq (hk.trans_eq (h.length q hq).symm)
  rwa [hb] at hread

theorem SourceRows.read_other {a : Nat} (ha : ∀ e < kOf s, ∀ k < tOf s, a ≠ srcRow s e + k) :
    (u.writeSymRows .symSrc l).mem.read a = u.mem.read a := by
  refine State.read_writeSymRows fun q hq hin => ?_
  rw [hb, h.length q hq] at hin
  obtain ⟨k, rfl⟩ := Nat.exists_eq_add_of_le hin.1
  exact ha q.1 (h.row_lt q hq) k (Nat.lt_of_add_lt_add_left hin.2) rfl

end

theorem sourceRows_presentSymbols (s : State) (n : Nat) : SourceRows s (presentSymbols s n) where
  nodup := nodup_presentSymbols s n
  row_lt _ hp := (mem_presentSymbols.1 hp).1
  length p hp := by
    obtain ⟨-, q, -, hv⟩ := mem_presentSymbols.1 hp
    rw [hv, length_rxSymbol]

/-! ### The failures before the solve, and the fast path -/

section
variable {s : State}

theorem blkDecode_range (hv : s.status.cfgValid = true) (hn : s.build.rxMax < argn s 0) :
    exec .blkDecode s = .next (failState s 0x04) := by
  show execBlkDecode s = _
  rw [execBlkDecode, needConfig_of_valid hv]
  exact if_pos hn

section
variable (hv : s.status.cfgValid = true) (hn : argn s 0 ≤ s.build.rxMax) (hesis : Valued s.mem 0x000300000000 (4 * argn s 0))
include hv hn hesis

theorem blkDecode_invalid (h : ∃ q < argn s 0, 2 ^ 24 ≤ esiAt s q) : exec .blkDecode s = .next (failState s 0x10) := by
  have hread : s.readEsis 0 (s.arg 0) = some (esisOf s (argn s 0)) := State.readEsis_eq_esisOf hesis
  have hany : (esisOf s (argn s 0)).any (fun e => 2 ^ 24 ≤ e) = true := by simpa [esisOf] using h
  show execBlkDecode s = _
  rw [execBlkDecode, needConfig_of_valid hv]
  refine (if_neg (Nat.not_lt_of_le hn)).trans ?_
  rw [hread, orNoValue_some, if_pos hany]
  rfl

variable (hlegal : ∀ q < argn s 0, esiAt s q < 2 ^ 24)
include hlegal

/-- With legal ESIs, BLK_DECODE copies the source symbols when none is missing, fails when the repair symbols are too few, and
else solves the augmented system (R280). -/
theorem exec_blkDecode : exec .blkDecode s =
    if missingRule s (argn s 0) = [] then
      orNoValue (s.readSymRows .symRx ((receivedSlots s (argn s 0)).map Prod.snd)) fun rx =>
      finish ((((s.setCValid false).writeSymRows .symSrc (((receivedSlots s (argn s 0)).map Prod.fst).zip rx)).setRes
        0 0).setRes 1 0)
    else if (repairsRule s (argn s 0)).length < (missingRule s (argn s 0)).length then
      failWith (s.setCValid false) .decodingFailureInsufficient
    else
      orNoValue (s.readSymRows .symRx ((receivedSlots s (argn s 0)).map Prod.snd)) fun rx =>
      orNoValue (s.readSymRows .symRx (repairsRule s (argn s 0))) fun rep =>
      decodeFull (s.setCValid false) (esisOf s (argn s 0)) (missingRule s (argn s 0)) (repairsRule s (argn s 0))
        (((receivedSlots s (argn s 0)).map Prod.fst).zip rx) rep := by
  have hread : s.readEsis 0 (s.arg 0) = some (esisOf s (argn s 0)) := State.readEsis_eq_esisOf hesis
  have hany : ¬(esisOf s (argn s 0)).any (fun e => 2 ^ 24 ≤ e) = true := by simpa [esisOf] using hlegal
  show execBlkDecode s = _
  rw [execBlkDecode, needConfig_of_valid hv]
  refine (if_neg (Nat.not_lt_of_le hn)).trans ?_
  rw [hread, orNoValue_some, if_neg hany, ← missingOf_esisOf, ← repairsOf_esisOf]
  rfl

theorem blkDecode_insufficient (h : (repairsRule s (argn s 0)).length < (missingRule s (argn s 0)).length) :
    exec .blkDecode s = .next { s with status := failStatus { s.status with cValid := false } 0x22 } := by
  have hmissing : missingRule s (argn s 0) ≠ [] := List.ne_nil_of_length_pos (Nat.zero_lt_of_lt h)
  rw [exec_blkDecode hv hn hesis hlegal, if_neg hmissing, if_pos h]
  rfl

/-- No source symbol is missing: the received ones are stored. -/
theorem blkDecode_fast (hrows : ∀ q < argn s 0, Valued s.mem (rxRow s q) (tOf s)) (h : missingRule s (argn s 0) = []) :
    exec .blkDecode s = .next
      { s with
        mem := ((s.setCValid false).writeSymRows .symSrc (presentSymbols s (argn s 0))).mem
        res := (s.res.set 0 0).set 1 0
        status := { doneStatus s.status with cValid := false } } := by
  rw [exec_blkDecode hv hn hesis hlegal, if_pos h, readSymRows_receivedSlots hrows, orNoValue_some, List.zip_map',
    State.writeSymRows_eq_setMem]
  rfl

end

end

/-- Settles O58. -/
theorem blkDecodeWithoutASolve : Obligations.BlkDecodeWithoutASolve := by
  unfold Obligations.BlkDecodeWithoutASolve
  refine ⟨⟨encodedN_of_decode fun w h => by rw [decode, h]; rfl, fun s => ⟨fun hv => needConfig_eq_failState hv _,
    blkDecode_range, fun hv hn hesis => ⟨blkDecode_invalid hv hn hesis, blkDecode_insufficient hv hn hesis⟩⟩⟩,
    fun s hs hv hn ⟨hesis, hrows⟩ hlegal hall => ?_⟩
  have hmissing : missingRule s (argn s 0) = [] := List.eq_nil_iff_forall_not_mem.2 fun e he => by
    obtain ⟨hk, hnone⟩ := mem_missingRule.1 he
    obtain ⟨q, hq, heq⟩ := hall e hk
    exact hnone q hq heq
  have hstored := sourceRows_presentSymbols s (argn s 0)
  refine ⟨_, blkDecode_fast hv hn hesis hlegal hrows hmissing, fun e he q hq k hk => ?_, fun a ha => ?_⟩
  · rw [← getD_rxSymbol hk]
    exact hstored.read_row (u := s.setCValid false) rfl (hs.blockFits hv).t
      (q := (e, rxSymbol s q)) (mem_presentSymbols.2 ⟨he, q, hq, rfl⟩) hk
  · exact hstored.read_other (u := s.setCValid false) rfl ha

end Sys2Proof.Machine
end

section
/-! PROOFS. The augmented system of BLK_DECODE (spec/45_block_codec.md R280): the system as the model builds it is the system of the
rule, row by row. -/

namespace Sys2Proof.Machine
open Sys2Proof.Claims

/-! ### Replacing rows of a list -/

section
variable {α : Type} {d : α}

theorem length_setAll (places : List (Nat × α)) (l : List α) : (setAll places l).length = l.length := by
  induction places generalizing l with
  | nil => rfl
  | cons p places ih => rw [setAll, ih, List.length_set]

theorem getD_setAll_of_notMem {places : List (Nat × α)} {l : List α} {r : Nat} (h : r ∉ places.map Prod.fst) :
    (setAll places l).getD r d = l.getD r d := by
  induction places generalizing l with
  | nil => rfl
  | cons p places ih =>
    obtain ⟨hne, hrest⟩ := not_or.1 (List.mem_cons.not.1 h)
    rw [setAll, ih hrest, List.getD_eq_getElem?_getD, List.getElem?_set_ne (Ne.symm hne), ← List.getD_eq_getElem?_getD]

theorem getD_setAll_of_mem {places : List (Nat × α)} {l : List α} (hnodup : (places.map Prod.fst).Nodup) {p : Nat × α}
    (hp : p ∈ places) (hlt : p.1 < l.length) : (setAll places l).getD p.1 d = p.2 := by
  induction places generalizing l with
  | nil => exact absurd hp List.not_mem_nil
  | cons q places ih =>
    obtain ⟨hq, hrest⟩ := List.nodup_cons.1 hnodup
    obtain rfl | hp := List.mem_cons.1 hp
    · rw [setAll, getD_setAll_of_notMem hq, getD_set hlt, if_pos rfl]
    · exact ih hrest hp (by rwa [List.length_set])

end

/-! ### The rows of the augmented system -/

section
variable (s : State) (n : Nat)

/-- The row of source symbol e in the encoding system and in the augmented system (R270, R280). -/
def sourceRow (e : Nat) : Nat := s.cfg.s.toNat + s.cfg.h.toNat + e

/-- L + x, the number of rows of the augmented system (R280). -/
def augmentedRows : Nat := lOf s + ((repairsRule s n).length - (missingRule s n).length)

/-- The rows of the augmented system, as the rule builds them (R280). -/
def augmentedMatrix : List Row :=
  (List.range (augmentedRows s n)).map (decodeRow s (missingRule s n) (repairsRule s n))

/-- The right-hand sides of the augmented system, as the rule builds them (R280). -/
def augmentedRhs : List Symbol :=
  (List.range (augmentedRows s n)).map (decodeSym s n (missingRule s n) (repairsRule s n))

/-- A list with an entry per row of the encoding system, where the rows of the missing symbols are replaced by `f` of their
repair symbols and `f` of the further repair symbols follows (R280). -/
def augmented (f : Nat → List Byte) (l : List (List Byte)) : List (List Byte) :=
  setAll (((missingRule s n).map (sourceRow s)).zip ((repairsRule s n).map f)) l ++
    ((repairsRule s n).map f).drop (missingRule s n).length

/-- The entry of row r in the terms of the rule: `f` of a repair symbol, or `g` of the row where none stands (R280). -/
def augmentedEntry (f g : Nat → List Byte) (r : Nat) : List Byte :=
  if lOf s ≤ r then f ((repairsRule s n).getD ((missingRule s n).length + (r - lOf s)) 0)
  else
    match (missingRule s n).findIdx? fun e => sourceRow s e == r with
    | some j => f ((repairsRule s n).getD j 0)
    | none => g r

/-- The row of a repair symbol (R280). -/
def repairPattern (q : Nat) : Row := patternOf s.build s.cfg (isiRule s (esiAt s q))

/-- The right-hand side of row r without the repair symbols: the received source symbol of the row, or zeros (R280). -/
def receivedRhs (r : Nat) : Symbol :=
  match (List.range n).find? fun q => decide (esiAt s q < kOf s) && sourceRow s (esiAt s q) == r with
  | some q => rxSymbol s q
  | none => List.replicate (tOf s) 0

theorem decodeRow_eq_augmentedEntry : decodeRow s (missingRule s n) (repairsRule s n) =
    augmentedEntry s n (repairPattern s) fun r => (constraintMatrix s.build s.cfg).getD r [] := rfl

theorem decodeSym_eq_augmentedEntry : decodeSym s n (missingRule s n) (repairsRule s n) =
    augmentedEntry s n (rxSymbol s) (receivedRhs s n) := rfl

end

section
variable {s : State} {n : Nat}

theorem sourceRow_injective (s : State) : Function.Injective (sourceRow s) := fun _ _ h => Nat.add_left_cancel h

theorem augmentedEntry_overhead {r : Nat} (hr : lOf s ≤ r) (f g : Nat → List Byte) :
    augmentedEntry s n f g r = f ((repairsRule s n).getD ((missingRule s n).length + (r - lOf s)) 0) := if_pos hr

theorem augmentedEntry_missing {j : Nat} (hj : j < (missingRule s n).length)
    (hr : sourceRow s ((missingRule s n)[j]) < lOf s) (f g : Nat → List Byte) :
    augmentedEntry s n f g (sourceRow s ((missingRule s n)[j])) = f ((repairsRule s n).getD j 0) := by
  have hfind : ((missingRule s n).findIdx? fun e => sourceRow s e == sourceRow s ((missingRule s n)[j])) = some j := by
    refine List.findIdx?_eq_some_iff_getElem.2 ⟨hj, beq_self_eq_true _, fun i hi heq => ?_⟩
    have hsame := (nodup_missingRule s n).getElem_inj_iff.1 (sourceRow_injective s (beq_iff_eq.1 heq))
    omega
  simp only [augmentedEntry, if_neg (Nat.not_le_of_lt hr), hfind]

theorem augmentedEntry_kept {r : Nat} (hr : r < lOf s) (h : ∀ e ∈ missingRule s n, sourceRow s e ≠ r)
    (f g : Nat → List Byte) : augmentedEntry s n f g r = g r := by
  have hfind : ((missingRule s n).findIdx? fun e => sourceRow s e == r) = none :=
    List.findIdx?_eq_none_iff.2 fun e he => beq_false_of_ne (h e he)
  simp only [augmentedEntry, if_neg (Nat.not_le_of_lt hr), hfind]

/-- A row of the augmented system stands in place of a missing symbol's row, or is a row of the encoding system, or follows
them. -/
theorem augmentedRow_cases (r : Nat) : lOf s ≤ r ∨ r < lOf s ∧
    ((∃ j, ∃ hj : j < (missingRule s n).length, sourceRow s ((missingRule s n)[j]) = r) ∨
      ∀ e ∈ missingRule s n, sourceRow s e ≠ r) := by
  refine (Nat.lt_or_ge r (lOf s)).symm.imp_right fun hr => ⟨hr, ?_⟩
  by_cases hmissing : ∃ e ∈ missingRule s n, sourceRow s e = r
  · obtain ⟨e, he, hrow⟩ := hmissing
    obtain ⟨j, hj, rfl⟩ := List.getElem_of_mem he
    exact .inl ⟨j, hj, hrow⟩
  · exact .inr fun e he hrow => hmissing ⟨e, he, hrow⟩

theorem getD_repairsRule_mem {j : Nat} (hj : j < (repairsRule s n).length) :
    (repairsRule s n).getD j 0 ∈ repairsRule s n := by
  rw [List.getD_eq_getElem _ _ hj]
  exact List.getElem_mem hj

section
variable (hle : (missingRule s n).length ≤ (repairsRule s n).length)
include hle

/-- An entry of the augmented system is that of a repair symbol, or the one that the encoding system has there. -/
theorem augmentedEntry_cases {r : Nat} (hr : r < augmentedRows s n) :
    (∃ q ∈ repairsRule s n, ∀ f g, augmentedEntry s n f g r = f q) ∨
      r < lOf s ∧ (∀ e ∈ missingRule s n, sourceRow s e ≠ r) ∧ ∀ f g, augmentedEntry s n f g r = g r := by
  rw [augmentedRows] at hr
  obtain hover | ⟨hlt, ⟨j, hj, rfl⟩ | hkept⟩ := augmentedRow_cases (s := s) (n := n) r
  · exact .inl ⟨_, getD_repairsRule_mem (by omega), augmentedEntry_overhead hover⟩
  · exact .inl ⟨_, getD_repairsRule_mem (hj.trans_le hle), augmentedEntry_missing hj hlt⟩
  · exact .inr ⟨hlt, hkept, augmentedEntry_kept hlt hkept⟩

/-- The list that the model builds has the entries of the rule. -/
theorem augmented_eq {f g : Nat → List Byte} {l : List (List Byte)} (hl : l.length = lOf s)
    (hg : ∀ r < lOf s, (∀ e ∈ missingRule s n, sourceRow s e ≠ r) → l.getD r [] = g r) :
    augmented s n f l = (List.range (augmentedRows s n)).map (augmentedEntry s n f g) := by
  have hset := (length_setAll (((missingRule s n).map (sourceRow s)).zip ((repairsRule s n).map f)) l).trans hl
  have hfst : (((missingRule s n).map (sourceRow s)).zip ((repairsRule s n).map f)).map Prod.fst =
      (missingRule s n).map (sourceRow s) := List.map_fst_zip (by simpa using hle)
  have hrepair {j : Nat} (hj : j < (repairsRule s n).length) :
      ((repairsRule s n).map f).getD j [] = f ((repairsRule s n).getD j 0) := by
    rw [List.getD_eq_getElem _ _ (by simpa using hj), List.getElem_map, List.getD_eq_getElem _ _ hj]
  refine eq_map_range_of_getD [] (by simp [augmented, hset, augmentedRows]) fun r hr => ?_
  rw [augmentedRows] at hr
  rw [augmented]
  obtain hover | ⟨hlt, ⟨j, hj, rfl⟩ | hkept⟩ := augmentedRow_cases (s := s) (n := n) r
  · rw [augmentedEntry_overhead hover, List.getD_append_right _ _ _ _ (hset.trans_le hover), hset, ← hrepair (by omega),
      List.getD_eq_getElem?_getD, List.getElem?_drop, ← List.getD_eq_getElem?_getD]
  · rw [augmentedEntry_missing hj hlt, List.getD_append _ _ _ _ (hlt.trans_eq hset.symm), ← hrepair (hj.trans_le hle),
      List.getD_eq_getElem (List.map f _) _ (by simpa using hj.trans_le hle)]
    refine getD_setAll_of_mem (p := (sourceRow s ((missingRule s n)[j]), _)) ?_ ?_ (hlt.trans_eq hl.symm)
    · rw [hfst]
      exact (nodup_missingRule s n).map (sourceRow_injective s)
    · refine List.mem_iff_getElem.2 ⟨j, by simpa using ⟨hj, hj.trans_le hle⟩, ?_⟩
      rw [List.getElem_zip, List.getElem_map]
  · rw [augmentedEntry_kept hlt hkept, List.getD_append _ _ _ _ (hlt.trans_eq hset.symm), getD_setAll_of_notMem, hg r hlt hkept]
    rw [hfst, List.mem_map]
    rintro ⟨e, he, hrow⟩
    exact hkept e he hrow

end

/-! ### The matrix -/

theorem length_repairPattern (s : State) (q : Nat) : (repairPattern s q).length = lOf s := length_patternOf _ _ _

section
variable (hfits : BlockFits s.build s.cfg) (hle : (missingRule s n).length ≤ (repairsRule s n).length)
include hfits

theorem length_encodingMatrix : (constraintMatrix s.build s.cfg).length = lOf s :=
  (length_constraintMatrix _ _).trans hfits.rows

include hle

theorem decodeMatrix_eq :
    decodeMatrix s.build s.cfg (esisOf s n) (missingRule s n) (repairsRule s n) = augmentedMatrix s n := by
  have hpatterns : ((repairsRule s n).map fun q => patternOf s.build s.cfg (isiOf s.cfg ((esisOf s n).getD q 0))) =
      (repairsRule s n).map (repairPattern s) := List.map_congr_left fun q hq => by
    rw [getD_esisOf (lt_of_mem_repairsRule hq)]
    rfl
  rw [augmentedMatrix, decodeRow_eq_augmentedEntry,
    ← augmented_eq hle (length_encodingMatrix hfits) fun r _ _ => rfl, decodeMatrix, hpatterns]
  rfl

end

/-! ### The right-hand side -/

theorem receivedRhs_of_isFirst {e q : Nat} (he : e < kOf s) (hq : IsFirst s n e q) :
    receivedRhs s n (sourceRow s e) = rxSymbol s q := by
  obtain ⟨hlt, rfl, hfirst⟩ := hq
  have hfind : ((List.range n).find? fun p => decide (esiAt s p < kOf s) && sourceRow s (esiAt s p) ==
      sourceRow s (esiAt s q)) = some q := by
    refine List.find?_range_eq_some.2 ⟨by simpa using he, List.mem_range.2 hlt, fun p hp => ?_⟩
    have hne : sourceRow s (esiAt s p) ≠ sourceRow s (esiAt s q) := fun h => hfirst p hp (sourceRow_injective s h)
    simp [hne]
  simp only [receivedRhs, hfind]

theorem receivedRhs_of_notReceived {r : Nat} (h : ∀ q < n, esiAt s q < kOf s → sourceRow s (esiAt s q) ≠ r) :
    receivedRhs s n r = List.replicate (tOf s) 0 := by
  have hfind : ((List.range n).find? fun q => decide (esiAt s q < kOf s) && sourceRow s (esiAt s q) == r) = none := by
    refine List.find?_eq_none.2 fun q hq => ?_
    simpa using h q (List.mem_range.1 hq)
  simp only [receivedRhs, hfind]

/-- A row is that of a received source symbol, or of none. -/
theorem received_row_cases (s : State) (n r : Nat) :
    (∃ e < kOf s, ∃ q, IsFirst s n e q ∧ sourceRow s e = r) ∨ ∀ q < n, esiAt s q < kOf s → sourceRow s (esiAt s q) ≠ r := by
  by_cases h : ∃ q < n, esiAt s q < kOf s ∧ sourceRow s (esiAt s q) = r
  · obtain ⟨q, hq, hk, hrow⟩ := h
    obtain ⟨p, hp⟩ := exists_isFirst ⟨q, hq, rfl⟩
    exact .inl ⟨_, hk, p, hp, hrow⟩
  · exact .inr fun q hq hk hrow => h ⟨q, hq, hk, hrow⟩

theorem length_receivedRhs (s : State) (n r : Nat) : (receivedRhs s n r).length = tOf s := by
  obtain ⟨e, he, q, hq, rfl⟩ | hnone := received_row_cases s n r
  · rw [receivedRhs_of_isFirst he hq, length_rxSymbol]
  · rw [receivedRhs_of_notReceived hnone, List.length_replicate]

/-- The received source symbols stored in their rows of a zero right-hand side. -/
theorem getD_setAll_presentSymbols {r : Nat} (hr : r < lOf s) :
    (setAll ((presentSymbols s n).map fun p => (sourceRow s p.1, p.2)) (List.replicate (lOf s) (zeroBytes (tOf s)))).getD r [] =
      receivedRhs s n r := by
  have hfst : ((presentSymbols s n).map fun p => (sourceRow s p.1, p.2)).map Prod.fst =
      ((presentSymbols s n).map Prod.fst).map (sourceRow s) := by rw [List.map_map, List.map_map]; rfl
  obtain ⟨e, he, q, hq, rfl⟩ | hnone := received_row_cases s n r
  · rw [receivedRhs_of_isFirst he hq]
    refine getD_setAll_of_mem (p := (sourceRow s e, rxSymbol s q)) ?_ ?_ (by simpa using hr)
    · rw [hfst]
      exact (nodup_presentSymbols s n).map (sourceRow_injective s)
    · exact List.mem_map.2 ⟨(e, rxSymbol s q), mem_presentSymbols.2 ⟨he, q, hq, rfl⟩, rfl⟩
  · rw [receivedRhs_of_notReceived hnone, getD_setAll_of_notMem, List.getD_replicate _ hr]
    · rfl
    · rw [hfst]
      intro hmem
      obtain ⟨e, he, hrow⟩ := List.mem_map.1 hmem
      obtain ⟨p, hp, rfl⟩ := List.mem_map.1 he
      obtain ⟨hk, q, ⟨hlt, heq, -⟩, -⟩ := mem_presentSymbols.1 hp
      exact hnone q hlt (heq ▸ hk) (heq ▸ hrow)

theorem decodeRhs_eq (hfits : BlockFits s.build s.cfg) (hle : (missingRule s n).length ≤ (repairsRule s n).length) :
    decodeRhs s.cfg (missingRule s n) (presentSymbols s n) ((repairsRule s n).map (rxSymbol s)) =
      augmentedRhs s n := by
  have hrows : s.cfg.s.toNat + s.cfg.h.toNat + s.cfg.kp.toNat = lOf s := hfits.rows
  rw [augmentedRhs, decodeSym_eq_augmentedEntry, ← augmented_eq hle (by rw [length_setAll, List.length_replicate])
    fun r hr _ => getD_setAll_presentSymbols hr, augmented, List.zip_map_left, decodeRhs, hrows]
  rfl

/-- The augmented system has at least L rows, of L columns and T bytes. -/
theorem augmentedSystem_shaped (hs : MachineOk s) (hv : s.status.cfgValid = true)
    (hle : (missingRule s n).length ≤ (repairsRule s n).length) :
    Shaped (dimsOf s) (augmentedMatrix s n) (augmentedRhs s n) := by
  have hrows := length_encodingMatrix (hs.blockFits hv)
  obtain ⟨-, hwp, -⟩ := blockParameterLaws s hs hv
  refine ⟨by simp [augmentedMatrix, augmentedRhs], by simp [dimsOf, augmentedMatrix, augmentedRows], ?_, fun row hrow => ?_,
    fun v hvd => ?_⟩
  · show s.cfg.p.toNat ≤ s.cfg.l.toNat
    omega
  · obtain ⟨r, hr, rfl⟩ := List.mem_map.1 hrow
    rw [decodeRow_eq_augmentedEntry]
    obtain ⟨q, -, hrepair⟩ | ⟨hlt, -, hkept⟩ := augmentedEntry_cases hle (List.mem_range.1 hr)
    · rw [hrepair]
      exact length_repairPattern s q
    · rw [hkept, List.getD_eq_getElem _ _ (hlt.trans_eq hrows.symm)]
      exact length_of_mem_constraintMatrix (List.getElem_mem _)
  · obtain ⟨r, hr, rfl⟩ := List.mem_map.1 hvd
    rw [decodeSym_eq_augmentedEntry]
    obtain ⟨q, -, hrepair⟩ | ⟨-, -, hkept⟩ := augmentedEntry_cases hle (List.mem_range.1 hr)
    · rw [hrepair]
      exact length_rxSymbol s q
    · rw [hkept]
      exact length_receivedRhs s n r

end

end Sys2Proof.Machine
end

section
/-! PROOFS. BLK_DECODE with a solve (spec/45_block_codec.md R280; 44_pi_solver.md R246): what a solved augmented system leaves in
the banks, and what a failed one leaves. -/

namespace Sys2Proof.Machine
open Sys2Proof.Claims

/-! ### The state that a decoding ends in -/

section
variable {s : State}

theorem State.writeSymRows_append (s : State) (r : Region) (l l' : List (Nat × Symbol)) :
    s.writeSymRows r (l ++ l') = (s.writeSymRows r l).writeSymRows r l' := by
  induction l generalizing s with
  | nil => rfl
  | cons q l ih => exact ih (s.writeSymRow r q.1 q.2)

/-- Completion after a solve whose banks were written further, with RES0 and RES1. -/
theorem complete_endSolve_setMem (s : State) (n : Nat) (out : List (Nat × Symbol)) (m : Memory) (u v : Word) :
    (((((s.beginSolve n).endSolve n out).setMem m).setRes 0 u).setRes 1 v).complete =
      { s with
        mem := m
        hostCopy := s.hostCopy.clear (s.inScratch n)
        mRows := word n
        res := (s.res.set 0 u).set 1 v
        status := { doneStatus s.status with cValid := true } } := by
  have hwritten (t : State) : (((t.setMem m).setRes 0 u).setRes 1 v).complete =
    { t.complete with mem := m, res := (t.res.set 0 u).set 1 v } := rfl
  rw [hwritten, complete_endSolve, State.endSolve_res, State.beginSolve_res]

/-- `enc(e)` over the SYM_C rows of some banks, for the missing e, with their rows of SYM_SRC (R280). -/
def recoveredSymbols (s : State) (m : Memory) (es : List Nat) : List (Nat × Symbol) :=
  es.map fun e => (e, (List.range (tOf s)).map fun k =>
    xorAll ((indicesOf s.build s.cfg e).map fun j => val m (cRow s j + k)))

theorem map_fst_recoveredSymbols (s : State) (m : Memory) (es : List Nat) : (recoveredSymbols s m es).map Prod.fst = es := by
  simp [recoveredSymbols, Function.comp_def]

theorem State.recover_of_valued (hc : WalkFits s.cfg) (h : ∀ j < lOf s, Valued s.mem (cRow s j) (tOf s)) (es : List Nat) :
    s.recover es = some (recoveredSymbols s s.mem es) := by
  induction es with
  | nil => rfl
  | cons e es ih =>
    rw [State.recover, State.enc_of_valued fun j hj => h j (lt_of_mem_indicesOf hc hj), ih]
    rfl

/-- Recovery after a solve: SYM_C holds values in all its rows [0, L). -/
theorem recover_endSolve (hc : WalkFits s.cfg) {n : Nat} {out : List (Nat × Symbol)}
    (h : ∀ j < lOf s, Valued ((s.beginSolve n).endSolve n out).mem (cRow s j) (tOf s)) (es : List Nat) :
    ((s.beginSolve n).endSolve n out).recover es =
      some (recoveredSymbols s ((s.beginSolve n).endSolve n out).mem es) := by
  rw [State.endSolve, State.writeSymRows_eq_setMem] at h ⊢
  exact State.recover_of_valued (s := (((s.beginSolve n).clearScratch n).setMem _).setCValid true) hc h es

/-- A solve that answers every row [0, L) leaves values in all of them. -/
theorem valued_of_solvedInto {n : Nat} {out : List (Nat × Symbol)} {m : Memory} (h : SolvedInto s n out m)
    (hperm : (out.map Prod.fst).Perm (List.range (lOf s))) : ∀ j < lOf s, Valued m (cRow s j) (tOf s) := by
  intro j hj k hk
  obtain ⟨q, hq, rfl⟩ := List.mem_map.1 (hperm.mem_iff.2 (List.mem_range.2 hj))
  rw [h.1 q hq k hk]
  rfl

/-- The recovered symbols and the received ones are all the source symbols, each once. -/
theorem sourceRows_decoded (s : State) (n : Nat) (m : Memory) :
    SourceRows s (recoveredSymbols s m (missingRule s n) ++ presentSymbols s n) := by
  have hpresent := sourceRows_presentSymbols s n
  refine ⟨?_, fun p hp => ?_, fun p hp => ?_⟩
  · rw [List.map_append, map_fst_recoveredSymbols]
    refine List.nodup_append'.2 ⟨nodup_missingRule s n, hpresent.nodup, fun e he hrow => ?_⟩
    obtain ⟨p, hp, rfl⟩ := List.mem_map.1 hrow
    obtain ⟨-, q, ⟨hq, heq, -⟩, -⟩ := mem_presentSymbols.1 hp
    exact (mem_missingRule.1 he).2 q hq heq
  · obtain hp | hp := List.mem_append.1 hp
    · obtain ⟨e, he, rfl⟩ := List.mem_map.1 hp
      exact (mem_missingRule.1 he).1
    · exact hpresent.row_lt p hp
  · obtain hp | hp := List.mem_append.1 hp
    · obtain ⟨e, -, rfl⟩ := List.mem_map.1 hp
      simp
    · exact hpresent.length p hp

/-! ### The full path (R280) -/

section
variable (hs : MachineOk s) (hv : s.status.cfgValid = true) (hn : argn s 0 ≤ s.build.rxMax) (hrx : RxValued s (argn s 0))
  (hlegal : ∀ q < argn s 0, esiAt s q < 2 ^ 24) (hmissing : missingRule s (argn s 0) ≠ [])
  (hle : (missingRule s (argn s 0)).length ≤ (repairsRule s (argn s 0)).length)
include hs hv hn hrx hlegal hmissing hle

/-- BLK_DECODE solves the augmented system of the rule, recovers the missing symbols, and stores them and the received ones. -/
theorem exec_blkDecode_full : exec .blkDecode s =
    solveThen (s.beginSolve (augmentedRows s (argn s 0))) (augmentedRows s (argn s 0)) (augmentedMatrix s (argn s 0))
      (augmentedRhs s (argn s 0)) fun t =>
      orNoValue (t.recover (missingRule s (argn s 0))) fun found =>
      finish (((t.writeSymRows .symSrc (found ++ presentSymbols s (argn s 0))).setRes 0
        (word (missingRule s (argn s 0)).length)).setRes 1 (word (augmentedRows s (argn s 0)))) := by
  obtain ⟨hesis, hrows⟩ := hrx
  have hfits := hs.blockFits hv
  rw [exec_blkDecode hv hn hesis hlegal, if_neg hmissing, if_neg (Nat.not_lt_of_le hle), readSymRows_receivedSlots hrows,
    orNoValue_some, readSymRows_rx hrows fun q => lt_of_mem_repairsRule, orNoValue_some, List.zip_map',
    ← decodeMatrix_eq hfits hle, ← decodeRhs_eq hfits hle]
  simp only [State.writeSymRows_append]
  rfl

theorem blkDecode_full_failed {e : FailCode}
    (he : solve s.build (dimsOf s) (augmentedMatrix s (argn s 0)) (augmentedRhs s (argn s 0)) = .error e) :
    exec .blkDecode s = .next
      { s with
        mem := s.mem.clear (s.inScratch (augmentedRows s (argn s 0)))
        hostCopy := s.hostCopy.clear (s.inScratch (augmentedRows s (argn s 0)))
        mRows := word (augmentedRows s (argn s 0))
        status := failStatus { s.status with cValid := false } e.code } := by
  rw [exec_blkDecode_full hs hv hn hrx hlegal hmissing hle, solveThen_of_error he, raiseFail_clearScratch]

/-- A successful solve leaves some banks, over which the missing symbols are encoded and into which the block is stored. -/
theorem blkDecode_full_solved {out : List (Nat × Symbol)}
    (hout : solve s.build (dimsOf s) (augmentedMatrix s (argn s 0)) (augmentedRhs s (argn s 0)) = .ok out) :
    ∃ u : State, u.build = s.build ∧ SolvedInto s (augmentedRows s (argn s 0)) out u.mem ∧ exec .blkDecode s = .next
      { s with
        mem := (u.writeSymRows .symSrc
          (recoveredSymbols s u.mem (missingRule s (argn s 0)) ++ presentSymbols s (argn s 0))).mem
        hostCopy := s.hostCopy.clear (s.inScratch (augmentedRows s (argn s 0)))
        mRows := word (augmentedRows s (argn s 0))
        res := (s.res.set 0 (word (missingRule s (argn s 0)).length)).set 1 (word (augmentedRows s (argn s 0)))
        status := { doneStatus s.status with cValid := true } } := by
  have hshape := augmentedSystem_shaped hs hv hle
  have hsolved := solvedInto_endSolve hs hv (n := augmentedRows s (argn s 0)) hshape hout
  obtain ⟨hperm, -⟩ := solve_spec hs.build hshape hout
  refine ⟨_, by simp, hsolved, ?_⟩
  rw [exec_blkDecode_full hs hv hn hrx hlegal hmissing hle, solveThen_of_ok hout,
    recover_endSolve (hs.walkFits hv) (valued_of_solvedInto hsolved hperm), orNoValue_some, State.writeSymRows_eq_setMem,
    finish, complete_endSolve_setMem]
  rfl

end

end

/-- Settles O59. -/
theorem blkDecodeFullPath : Obligations.BlkDecodeFullPath := by
  unfold Obligations.BlkDecodeFullPath
  intro s hs hv hn hrx hlegal n missing repairs hmissing hle
  have hfits := hs.blockFits hv
  have hcopy := read_clear_inScratch hfits s.hostCopy (augmentedRows s (argn s 0))
  refine ⟨fun out hout => ?_, fun e he => ⟨_, _, blkDecode_full_failed hs hv hn hrx hlegal hmissing hle he,
    read_clear_inScratch hfits s.mem (augmentedRows s (argn s 0)), hcopy⟩⟩
  obtain ⟨u, hbuild, hsolved, hexec⟩ := blkDecode_full_solved hs hv hn hrx hlegal hmissing hle hout
  have hstored := sourceRows_decoded s (argn s 0) u.mem
  refine ⟨_, u.mem, _, hcopy, hexec, hsolved, fun e he q hq k hk => ?_, fun e he k hk => ?_,
    fun x hx => hstored.read_other hbuild hx⟩
  · rw [← getD_rxSymbol hk]
    exact hstored.read_row hbuild hfits.t (q := (e, rxSymbol s q))
      (List.mem_append_right _ (mem_presentSymbols.2 ⟨he, q, hq, rfl⟩)) hk
  · refine (hstored.read_row hbuild hfits.t (List.mem_append_left _ (List.mem_map.2 ⟨e, he, rfl⟩)) hk).trans ?_
    rw [getD_map_range _ _ hk]

end Sys2Proof.Machine
end

section
/-! PROOFS. Decoding recovers the block (spec/45_block_codec.md R281): the intermediate symbols of the block solve the augmented
system, so that a successful solve answers them, and `enc` of the missing ESIs gives the source symbols. -/

namespace Sys2Proof.Machine
open Sys2Proof.Claims

/-! ### Encoding over the symbols of a list -/

section
variable {s : State} {c : List Symbol} {x k : Nat}

theorem getD_encOver (hk : k < tOf s) : (encOver s c x).getD k 0 =
    xorAll ((indicesOf s.build s.cfg x).map fun n => (c.getD n []).getD k 0) := getD_map_range _ _ hk

/-- The product of pattern(X) and the symbols is `enc(X)` over them (43_lt_encoder.md R212). -/
theorem dot_patternOf (hs : MachineOk s) (hv : s.status.cfgValid = true) (hk : k < tOf s) :
    dot s.build (patternOf s.build s.cfg x) (c.map fun v => v.getD k 0) = (encOver s c x).getD k 0 := by
  rw [getD_encOver hk, xorAll_indicesOf_eq_patternProduct hs.build (hs.walkFits hv), dot, length_patternOf]
  simp only [getD_map_getD]

end

/-! ### The block's intermediate symbols -/

/-- c solves the encoding system of the block src (R270). -/
structure Encodes (s : State) (src c : List Symbol) : Prop where
  source : Symbols (kOf s) (tOf s) src
  symbols : Symbols (lOf s) (tOf s) c
  solution : IsSolution s.build (constraintMatrix s.build s.cfg) (encodeD s src) c (tOf s)

/-- The first n received symbols are source symbols of the block and `enc` of their ISIs (R276). -/
def Honest (s : State) (n : Nat) (src c : List Symbol) : Prop :=
  ∀ q < n, rxSymbol s q = if esiAt s q < kOf s then src.getD (esiAt s q) [] else encOver s c (isiRule s (esiAt s q))

section
variable {s : State} {n : Nat} {src c : List Symbol}

theorem getD_encodeD_source {e : Nat} (he : e < kOf s) (hr : sourceRow s e < lOf s) :
    (encodeD s src).getD (sourceRow s e) [] = src.getD e [] := by
  rw [sourceRow] at hr ⊢
  rw [encodeD, getD_map_range _ _ hr, if_pos (by omega), Nat.add_sub_cancel_left]

theorem getD_encodeD_zero {r : Nat} (hr : r < lOf s) (h : ∀ e < kOf s, sourceRow s e ≠ r) :
    (encodeD s src).getD r [] = List.replicate (tOf s) 0 := by
  rw [encodeD, getD_map_range _ _ hr, if_neg]
  rintro ⟨hlo, hhi⟩
  exact h (r - (s.cfg.s.toNat + s.cfg.h.toNat)) (by omega) (by rw [sourceRow]; omega)

theorem Honest.rxSymbol_first (h : Honest s n src c) {e q : Nat} (he : e < kOf s) (hq : IsFirst s n e q) :
    rxSymbol s q = src.getD e [] := by
  obtain ⟨hlt, rfl, -⟩ := hq
  rw [h q hlt, if_pos he]

/-- Where no missing symbol's row stands, the augmented system asks what the encoding system asks. -/
theorem Honest.receivedRhs_eq (h : Honest s n src c) {r : Nat} (hr : r < lOf s)
    (hkept : ∀ e ∈ missingRule s n, sourceRow s e ≠ r) : receivedRhs s n r = (encodeD s src).getD r [] := by
  obtain ⟨e, he, q, hq, rfl⟩ | hnone := received_row_cases s n r
  · rw [receivedRhs_of_isFirst he hq, getD_encodeD_source he hr, h.rxSymbol_first he hq]
  · rw [receivedRhs_of_notReceived hnone, getD_encodeD_zero hr]
    intro e he hrow
    obtain hmem | ⟨q, hlt, rfl, -⟩ := mem_missingRule_or_isFirst (n := n) he
    · exact hkept e hmem hrow
    · exact hnone q hlt he hrow

section
variable (hs : MachineOk s) (hv : s.status.cfgValid = true) (hc : Encodes s src c)
include hs hv hc

/-- The symbols that encode a block solve the augmented system of its received symbols. -/
theorem Encodes.isSolution_augmented (h : Honest s n src c)
    (hle : (missingRule s n).length ≤ (repairsRule s n).length) :
    IsSolution s.build (augmentedMatrix s n) (augmentedRhs s n) c (tOf s) := by
  intro r hr k hk
  have hrows : r < augmentedRows s n := by simpa [augmentedMatrix] using hr
  rw [augmentedMatrix, augmentedRhs, getD_map_range _ _ hrows, getD_map_range _ _ hrows, decodeRow_eq_augmentedEntry,
    decodeSym_eq_augmentedEntry]
  obtain ⟨q, hq, hrepair⟩ | ⟨hlt, hmissing, hkept⟩ := augmentedEntry_cases hle hrows
  · rw [hrepair, hrepair, h q (lt_of_mem_repairsRule hq), if_neg (Nat.not_lt_of_le (kOf_le_of_mem_repairsRule hq))]
    exact dot_patternOf hs hv hk
  · rw [hkept, hkept, h.receivedRhs_eq hlt hmissing]
    exact hc.solution r (hlt.trans_eq (length_encodingMatrix (hs.blockFits hv)).symm) k hk

/-- `enc(e)` over the symbols that encode a block is source symbol e (43_lt_encoder.md R212). -/
theorem Encodes.enc_source {e : Nat} (he : e < kOf s) {k : Nat} (hk : k < tOf s) :
    xorAll ((indicesOf s.build s.cfg e).map fun j => (c.getD j []).getD k 0) = (src.getD e []).getD k 0 := by
  have hfits := hs.blockFits hv
  have hrows : s.cfg.s.toNat + s.cfg.h.toNat + s.cfg.kp.toNat = lOf s := hfits.rows
  obtain ⟨-, -, -, -, -, -, -, -, -, -, -, -, -, -, hkp, -⟩ := blockParameterLaws s hs hv
  have hlt : e < s.cfg.kp.toNat := he.trans_le hkp
  have hrow : sourceRow s e < lOf s := by rw [sourceRow]; omega
  have hsol := hc.solution _ (hrow.trans_eq (length_encodingMatrix hfits).symm) k hk
  rwa [getD_encodeD_source he hrow, sourceRow, getD_constraintMatrix_genc hlt, dot_patternOf hs hv hk, getD_encOver hk] at hsol

/-- A successful solve of the augmented system leaves the block's intermediate symbols in SYM_C. -/
theorem Encodes.solved_symC (h : Honest s n src c) (hle : (missingRule s n).length ≤ (repairsRule s n).length)
    {out : List (Nat × Symbol)} (hout : solve s.build (dimsOf s) (augmentedMatrix s n) (augmentedRhs s n) = .ok out)
    {m : Memory} (hm : SolvedInto s (augmentedRows s n) out m) {j : Nat} (hj : j < lOf s) {k : Nat} (hk : k < tOf s) :
    m.read (cRow s j + k) = some ((c.getD j []).getD k 0) := by
  obtain ⟨hperm, hvalue⟩ := solverIsRight.1 s.build (dimsOf s) _ _ c out hs.build (augmentedSystem_shaped hs hv hle)
    hc.symbols (hc.isSolution_augmented hs hv h hle) hout
  obtain ⟨q, hq, rfl⟩ := List.mem_map.1 (hperm.mem_iff.2 (List.mem_range.2 hj))
  rw [hm.1 q hq k hk, hvalue q hq]

/-- `enc(e)` over SYM_C, once it holds the block's intermediate symbols. -/
theorem Encodes.enc_symC {m : Memory} (hm : ∀ j < lOf s, ∀ k < tOf s, m.read (cRow s j + k) = some ((c.getD j []).getD k 0))
    {e : Nat} (he : e < kOf s) {k : Nat} (hk : k < tOf s) :
    xorAll ((indicesOf s.build s.cfg e).map fun j => val m (cRow s j + k)) = (src.getD e []).getD k 0 := by
  rw [← hc.enc_source hs hv he hk]
  refine congrArg xorAll (List.map_congr_left fun j hj => ?_)
  rw [val, hm j (lt_of_mem_indicesOf (hs.walkFits hv) hj) k hk]
  rfl

end

/-- SYM_C and SYM_SRC lie apart (20_memory.md R60). -/
theorem cRow_ne_srcRow (hs : MachineOk s) (hv : s.status.cfgValid = true) {j e k i : Nat} (hj : j < lOf s) (hk : k < tOf s)
    (he : e < kOf s) (hi : i < tOf s) : cRow s j + k ≠ srcRow s e + i := by
  have hfits := hs.blockFits hv
  have hc : Region.symC.holds s.build (cRow s j + k) 1 = true :=
    Region.holds_row (r := .symC) le_rfl (hj.trans_le hfits.l) (hk.trans_le hfits.t)
  have hsrc : Region.symSrc.holds s.build (srcRow s e + i) 1 = true :=
    Region.holds_row (r := .symSrc) le_rfl (he.trans_le hfits.k) (hi.trans_le hfits.t)
  intro heq
  exact absurd (Region.eq_of_holds hs.build one_pos one_pos hc (heq ▸ hsrc)) (by decide)

/-! ### Decoding -/

theorem next_unique {i : Instr} {t u : State} (h : exec i s = .next t) (hu : exec i s = .next u) : t = u :=
  Host.Outcome.next.inj (h.symm.trans hu)

/-- A BLK_DECODE that ends without an error passed its checks (R280). -/
theorem blkDecode_checks {t : State} (hv : s.status.cfgValid = true) (hesis : Valued s.mem 0x000300000000 (4 * argn s 0))
    (h : exec .blkDecode s = .next t) (herr : t.status.err = false) :
    argn s 0 ≤ s.build.rxMax ∧ (∀ q < argn s 0, esiAt s q < 2 ^ 24) ∧
      (missingRule s (argn s 0)).length ≤ (repairsRule s (argn s 0)).length := by
  have hn : argn s 0 ≤ s.build.rxMax := by
    by_contra hgt
    obtain rfl := next_unique h (blkDecode_range hv (Nat.lt_of_not_le hgt))
    cases herr
  have hlegal : ∀ q < argn s 0, esiAt s q < 2 ^ 24 := by
    by_contra hbad
    push Not at hbad
    obtain rfl := next_unique h (blkDecode_invalid hv hn hesis hbad)
    cases herr
  refine ⟨hn, hlegal, ?_⟩
  by_contra hfew
  obtain rfl := next_unique h (blkDecode_insufficient hv hn hesis hlegal (Nat.lt_of_not_le hfew))
  cases herr

end

/-- Settles O60: the symbols that encode the block solve the augmented system, so that a successful solve answers them. -/
theorem decodingRecoversTheBlock : Obligations.DecodingRecoversTheBlock := by
  unfold Obligations.DecodingRecoversTheBlock
  intro s t src c hs hv _ hsrc hsymbols hsol hrx hall h herr
  have hc : Encodes s src c := ⟨hsrc, hsymbols, hsol⟩
  have hhonest : Honest s (argn s 0) src c := hall
  obtain ⟨hn, hlegal, hle⟩ := blkDecode_checks hv hrx.1 h herr
  have hreceived {e q k : Nat} (he : e < kOf s) (hq : IsFirst s (argn s 0) e q) (hk : k < tOf s) :
      val s.mem (rxRow s q + k) = (src.getD e []).getD k 0 := by
    rw [← getD_rxSymbol hk, hhonest.rxSymbol_first he hq]
  by_cases hmissing : missingRule s (argn s 0) = []
  · have hfirst {e : Nat} (he : e < kOf s) : ∃ q, IsFirst s (argn s 0) e q :=
      (mem_missingRule_or_isFirst he).resolve_left (by simp [hmissing])
    obtain ⟨m, hexec, hcopied, -⟩ := blkDecodeWithoutASolve.2 s hs hv hn hrx hlegal fun e he =>
      (hfirst he).imp fun q ⟨hlt, heq, _⟩ => ⟨hlt, heq⟩
    obtain rfl := next_unique h hexec
    refine ⟨fun e he k hk => ?_, fun hcv => by cases hcv⟩
    obtain ⟨q, hq⟩ := hfirst he
    rw [hcopied e he q hq k hk, hreceived he hq hk]
  · obtain ⟨hok, hfailed⟩ := blkDecodeFullPath s hs hv hn hrx hlegal hmissing hle
    cases hres : solve s.build (dimsOf s) (augmentedMatrix s (argn s 0)) (augmentedRhs s (argn s 0)) with
    | error e =>
      obtain ⟨m, copy, hexec, -⟩ := hfailed e hres
      obtain rfl := next_unique h hexec
      cases herr
    | ok out =>
      obtain ⟨m, m1, copy, -, hexec, hsolved, hcopied, hrecovered, hother⟩ := hok out hres
      obtain rfl := next_unique h hexec
      have hsymC (j : Nat) (hj : j < lOf s) (k : Nat) (hk : k < tOf s) :
          m1.read (cRow s j + k) = some ((c.getD j []).getD k 0) := hc.solved_symC hs hv hhonest hle hres hsolved hj hk
      refine ⟨fun e he k hk => ?_, fun _ j hj k hk => ?_⟩
      · obtain hmem | ⟨q, hq⟩ := mem_missingRule_or_isFirst (n := argn s 0) he
        · exact (hrecovered e hmem k hk).trans (congrArg some (hc.enc_symC hs hv hsymC he hk))
        · exact (hcopied e he q hq k hk).trans (congrArg some (hreceived he hq hk))
      · rw [hother _ fun e he i hi => cRow_ne_srcRow hs hv hj hk he hi]
        exact hsymC j hj k hk

end Sys2Proof.Machine
end

section
/-! PROOFS. The end of every command and the way on after it: which codes each command raises (spec/60_exceptions.md R300 to
R303), the acknowledgement of a failure (R304), and NOP (R310). -/

namespace Sys2Proof.Machine
open Sys2Proof.Claims

/-! ### The codes that a command raises (R300, R301) -/

/-- The outcomes of a command begun in `s` that raises only these codes: the fault of a location without value, a completion
with ERR and ERRCODE as `s` has them, or a failure with one of the codes. -/
inductive RaisesOnly (s : State) (codes : List Byte) : Out → Prop where
  | fault : RaisesOnly s codes (.fault .noValue)
  | completed {u : State} (herr : u.status.err = s.status.err) (hcode : u.status.errCode = s.status.errCode) :
    RaisesOnly s codes (finish u)
  | failed {u : State} {c : FailCode} (hc : c.code ∈ codes) : RaisesOnly s codes (failWith u c)

namespace RaisesOnly

variable {s : State} {codes : List Byte}

theorem ite {p : Prop} [Decidable p] {o o' : Out} (h : RaisesOnly s codes o) (h' : RaisesOnly s codes o') :
    RaisesOnly s codes (if p then o else o') := by
  split
  · exact h
  · exact h'

theorem orNoValue {α : Type} {o : Option α} {k : α → Out} (hk : ∀ v, RaisesOnly s codes (k v)) :
    RaisesOnly s codes (orNoValue o k) := by
  cases o with
  | none => exact .fault
  | some v => exact hk v

theorem needConfig {k : Out} (hc : FailCode.notConfigured.code ∈ codes) (hk : RaisesOnly s codes k) :
    RaisesOnly s codes (needConfig s k) := .ite hk (.failed hc)

/-- A solve raises the codes of phases 1 and 2 (44_pi_solver.md R231, R232). -/
theorem solveThen {u : State} {n : Nat} {a : List Row} {d : List Symbol} {k : State → Out}
    (h1 : FailCode.decodingFailurePh1.code ∈ codes) (h2 : FailCode.decodingFailurePh2.code ∈ codes)
    (hk : ∀ out, RaisesOnly s codes (k (u.endSolve n out))) : RaisesOnly s codes (solveThen u n a d k) := by
  unfold Machine.solveThen
  split
  · rename_i he
    obtain rfl | rfl := solve_error he
    · exact .failed h1
    · exact .failed h2
  · exact hk _

end RaisesOnly

section
variable {s : State} {db sb : BankCode}

theorem lt_of_bankCodeOk {c : BankCode} (h : bankCodeOk c = true) : c.toNat < 5 := by
  rw [← Bool.not_eq_false, bankCodeOk_eq_false] at h
  exact Nat.lt_of_not_le h

/-- With a legal bank code the check of a destination raises NOT_CONFIGURED and RANGE only (40_gf256.md R120). -/
theorem code_mem_of_dstOperand (hd : bankCodeOk db = true) {c : FailCode} (h : dstOperand db s = .error c) :
    c.code ∈ [0x02, 0x04] := by
  have hd := lt_of_bankCodeOk hd
  cases hv : s.status.cfgValid with
  | false =>
    cases h.symm.trans (dstOperand_of_unconfigured hd hv)
    decide
  | true =>
    by_cases h0 : argn s 0 < rowsOf s.build db.toNat
    · cases h.symm.trans (dstOperand_of_checks hd hv h0)
    · cases h.symm.trans (dstOperand_of_beyond hd hv (Nat.le_of_not_lt h0))
      decide

/-- The same of the check of a destination and a source (R120). -/
theorem code_mem_of_dstSrcOperands (hd : bankCodeOk db = true) (hs : bankCodeOk sb = true) {c : FailCode}
    (h : dstSrcOperands db sb s = .error c) : c.code ∈ [0x02, 0x04] := by
  have hd := lt_of_bankCodeOk hd
  have hs := lt_of_bankCodeOk hs
  cases hv : s.status.cfgValid with
  | false =>
    cases h.symm.trans (dstSrcOperands_of_unconfigured hd hs hv)
    decide
  | true =>
    by_cases hrows : rowsOf s.build db.toNat ≤ argn s 0 ∨ rowsOf s.build sb.toNat ≤ argn s 1
    · cases h.symm.trans (dstSrcOperands_of_beyond hd hs hv hrows)
      decide
    · obtain ⟨h0, h1⟩ := not_or.1 hrows
      cases h.symm.trans (dstSrcOperands_of_checks hd hs hv (Nat.lt_of_not_le h0) (Nat.lt_of_not_le h1))

/-- A vector command whose destination is checked first (R120). -/
theorem RaisesOnly.of_dstOperand {i : Instr} (hd : bankCodeOk db = true)
    (hfail : ∀ c, dstOperand db s = .error c → exec i s = failWith s c)
    (hgo : ∀ dst, dstOperand db s = .ok dst → RaisesOnly s [0x02, 0x04] (exec i s)) :
    RaisesOnly s [0x02, 0x04] (exec i s) := by
  cases h : dstOperand db s with
  | error c =>
    rw [hfail c h]
    exact .failed (code_mem_of_dstOperand hd h)
  | ok dst => exact hgo dst h

/-- A vector command whose destination and source are checked first (R120). -/
theorem RaisesOnly.of_dstSrcOperands {i : Instr} (hd : bankCodeOk db = true) (hs : bankCodeOk sb = true)
    (hfail : ∀ c, dstSrcOperands db sb s = .error c → exec i s = failWith s c)
    (hgo : ∀ dst src, dstSrcOperands db sb s = .ok (dst, src) → RaisesOnly s [0x02, 0x04] (exec i s)) :
    RaisesOnly s [0x02, 0x04] (exec i s) := by
  cases h : dstSrcOperands db sb s with
  | error c =>
    rw [hfail c h]
    exact .failed (code_mem_of_dstSrcOperands hd hs h)
  | ok p => exact hgo p.1 p.2 h

end

section
variable {s : State}

theorem execSitCeil_raises : RaisesOnly s (raisedBy .sitCeil) (execSitCeil s) := by
  refine .ite (.failed (by decide)) ?_
  split
  · exact .failed (by decide)
  · exact .completed rfl rfl

theorem execSitLookup_raises : RaisesOnly s (raisedBy .sitLookup) (execSitLookup s) := by
  unfold execSitLookup
  split
  · exact .failed (by decide)
  · exact .completed rfl rfl

theorem execBlkConfig_raises : RaisesOnly s (raisedBy .blkConfig) (execBlkConfig s) := by
  unfold execBlkConfig
  dsimp only
  split
  · exact .failed (by decide)
  · exact .completed rfl rfl

theorem execPiSolve_raises : RaisesOnly s (raisedBy .piSolve) (execPiSolve s) :=
  .needConfig (by decide) (.ite (.failed (by decide)) (.orNoValue fun _ => .orNoValue fun _ =>
    .solveThen (by decide) (by decide) fun _ => .completed (by simp) (by simp)))

theorem execBlkEncode_raises : RaisesOnly s (raisedBy .blkEncode) (execBlkEncode s) :=
  .needConfig (by decide) (.orNoValue fun _ =>
    .solveThen (by decide) (by decide) fun _ => .completed (by simp) (by simp))

/-- The full path of BLK_DECODE begins once C_VALID is cleared (45_block_codec.md R280). -/
theorem decodeFull_raises (esis missing repairs : List Nat) (present : List (Nat × Symbol)) (rep : List Symbol) :
    RaisesOnly s (raisedBy .blkDecode) (decodeFull (s.setCValid false) esis missing repairs present rep) := by
  unfold decodeFull
  exact .solveThen (by decide) (by decide) fun _ => .orNoValue fun _ => .completed (by simp) (by simp)

theorem execBlkDecode_raises : RaisesOnly s (raisedBy .blkDecode) (execBlkDecode s) :=
  .needConfig (by decide) (.ite (.failed (by decide)) (.orNoValue fun _ => .ite (.failed (by decide))
    (.ite (.orNoValue fun _ => .completed (by simp) (by simp)) (.ite (.failed (by decide))
      (.orNoValue fun _ => .orNoValue fun _ => decodeFull_raises _ _ _ _ _)))))

/-- Every well-formed command raises only the codes of its row of the failure table. -/
theorem exec_raisesOnly {i : Instr} (hi : i.wellFormed = true) : RaisesOnly s (raisedBy i) (exec i s) := by
  cases i with
  | nop | gfAdd u v | gfSub u v | gfMul u v => exact .completed rfl rfl
  | gfDiv u v | gfExp idx | gfLog x | partition | rand | deg =>
    exact .ite (.failed (List.mem_singleton_self _)) (.completed rfl rfl)
  | vxor db sb | vaxpy db sb beta =>
    obtain ⟨hd, hs⟩ := Bool.and_eq_true_iff.1 hi
    refine .of_dstSrcOperands hd hs (fun c hc => ?_) fun dst src hop => ?_
    · simp only [exec, execVxor, execVaxpy, hc]
    · simp only [exec, execVxor, execVaxpy, hop]
      exact .orNoValue fun x => .orNoValue fun y => .completed rfl rfl
  | vcopy db sb =>
    obtain ⟨hd, hs⟩ := Bool.and_eq_true_iff.1 hi
    refine .of_dstSrcOperands hd hs (fun c hc => by rw [exec, execVcopy, hc]) fun dst src hop => ?_
    rw [exec, execVcopy, hop]
    exact .orNoValue fun y => .completed rfl rfl
  | vscale db beta =>
    refine .of_dstOperand hi (fun c hc => by rw [exec, execVscale, hc]) fun dst hop => ?_
    rw [exec, execVscale, hop]
    exact .orNoValue fun x => .completed rfl rfl
  | vzero db =>
    refine .of_dstOperand hi (fun c hc => by rw [exec, execVzero, hc]) fun dst hop => ?_
    rw [exec, execVzero, hop]
    exact .completed rfl rfl
  | sitCeil => exact execSitCeil_raises
  | sitLookup => exact execSitLookup_raises
  | blkConfig => exact execBlkConfig_raises
  | tuple => exact .needConfig (by decide) (.completed rfl rfl)
  | buildA => exact .needConfig (by decide) (.completed (by simp) (by simp))
  | rowPattern => exact .needConfig (by decide) (.ite (.failed (by decide)) (.completed rfl rfl))
  | ltEnc => exact .needConfig (by decide) (.ite (.orNoValue fun v => .completed rfl rfl) (.failed (by decide)))
  | piSolve => exact execPiSolve_raises
  | blkEncode => exact execBlkEncode_raises
  | blkSymbol =>
    exact .needConfig (by decide) (.ite (.failed (by decide)) (.ite (.orNoValue fun v => .completed rfl rfl)
      (.ite (.orNoValue fun v => .completed rfl rfl) (.failed (by decide)))))
  | blkDecode => exact execBlkDecode_raises

end

/-- Settles O23: a completion leaves ERR = 0 and ERRCODE as they were, and a failure raises one of the command's codes. -/
theorem codesEachCommandRaises : Obligations.CodesEachCommandRaises := by
  unfold Obligations.CodesEachCommandRaises
  intro i s hi he
  have hend : RaisesOnly s (raisedBy i) (exec i s) := exec_raisesOnly hi
  generalize exec i s = o at hend ⊢
  cases hend with
  | fault => exact .inl rfl
  | completed herr hcode => exact .inr ⟨_, rfl, by simp [herr, he], by simp [hcode]⟩
  | failed hc => exact .inr ⟨_, rfl, by simp [hc], by simp⟩

/-! ### The return from a failure (R304) -/

/-- Settles O7: the STATUS write clears ERR and ERRCODE, so that the CMD write after it issues. -/
theorem acknowledgeFailure : Obligations.AcknowledgeFailure := by
  unfold Obligations.AcknowledgeFailure
  intro s v w rest hb hv hh
  obtain ⟨-, -, hwrite, -⟩ := statusRegister
  refine ⟨_, _, hwrite s v _ hh, by simp [hv], by simp [hv], rfl, ?_, rfl⟩
  refine hostDoes_issue ?_ ?_ w rest rfl
  · exact hb
  · simp [hv]

/-! ### NOP (R310) -/

/-- Settles O25. -/
theorem nopCompletes : Obligations.NopCompletes := by
  unfold Obligations.NopCompletes
  exact ⟨encodedN_of_decode fun w h => by rw [decode, h]; rfl, fun s => rfl, rfl⟩

end Sys2Proof.Machine
end

section
/-! PROOFS. Reset (spec/70_reset_and_hazards.md R330 to R332): what it leaves in every register and bank, from any state, and
that the machine starts sound. -/

namespace Sys2Proof.Machine
open Sys2Proof.Claims

/-! ### The values of reset -/

theorem Status.toWord_reset : Status.reset.toWord = 0 := rfl

theorem cfgList_reset : cfgList BlockParams.reset = List.replicate 12 0 := rfl

/-- A step in which the host resets is the reset. -/
theorem step_of_reset {s : State} {rest : List HostEvent} (hh : s.host = .reset :: rest) :
    step s = .next (State.afterReset { s with host := rest }) := by
  rw [step, takeTurn, hh]

/-- Reset ends any command in progress, so that every register can be read after it (R68). -/
theorem reads_afterReset (s : State) {off : Nat} (hlt : off < 0x1000) (hal : off % 4 = 0) :
    Reads s.afterReset off (s.afterReset.readReg (regAt off)) := by
  have idle : s.afterReset.status.busy = false := by rw [State.afterReset_status]; rfl
  exact reads_register s.afterReset hlt hal (.inl idle)

/-- Settles O17: the fields that the reset event leaves, the reads of ID and CMD after it, and the same fields where the machine
starts. -/
theorem resetValues : Obligations.ResetValues := by
  unfold Obligations.ResetValues
  have empty (a : Nat) : Memory.read [] a = none ∧ Memory.read [] a = none := ⟨Memory.read_nil a, Memory.read_nil a⟩
  refine ⟨fun s rest hh => ?_, Status.toWord_reset, rfl, rfl, cfgList_reset, rfl, empty⟩
  have readId := reads_afterReset { s with host := rest } (off := 0x000) (by omega) rfl
  have readCmd := reads_afterReset { s with host := rest } (off := 0x004) (by omega) rfl
  exact ⟨_, step_of_reset hh, rfl, rfl, Status.toWord_reset, rfl, rfl, cfgList_reset, rfl, rfl, empty, readId, readCmd⟩

/-! ### The machine starts sound -/

theorem StatusOk.reset : StatusOk Status.reset := ⟨fun _ => rfl, nofun, nofun, nofun⟩

/-- Settles O20: the build that reset finds is legal, no flag of STATUS is set, and no bank holds a byte. -/
theorem resetIsSound : Obligations.ResetIsSound where
  build := buildOk_reset
  status := .reset
  config := nofun
  canonical := reset_mem_wf
  banks := nofun
  copyCanonical := List.Pairwise.nil
  copyBanks := nofun

end Sys2Proof.Machine
end
